-- ==== Sys2Proof/Word.lean ====
section
/-! DEFINITION. The widths of 00_scope.md R5 (`TW` = `AW` = `NW` = `RW` = 32, `CNT_W` = 8) as types, and the word
types of the ports (30_encoding.md R71, R73, R74, R75, R77). Every value is an unsigned integer (R7). -/

namespace Sys2Proof

/-- A time stamp or a difference of two, in ticks: `TW` = 32 bits (R5). -/
abbrev Tick := BitVec 32

/-- A buffer-start address of sample memory: `AW` = 32 bits (R5). The block never dereferences it (R50). -/
abbrev Addr := BitVec 32

/-- A number of samples: `NW` = 32 bits (R5). -/
abbrev SampleCount := BitVec 32

/-- The sample-rate operand of START: `RW` = 32 bits (R5). The block passes it on unread (R121(f)). -/
abbrev Rate := BitVec 32

/-- The pulse counter: `CNT_W` = 8 bits (R5). -/
abbrev PulseCount := BitVec 8

/-- One of the four 32-bit lanes of a 128-bit word (R71, R73, R74). -/
abbrev Lane := BitVec 32

/-- A 128-bit word: a host command `hc`, a host response `hr` or an output command `oc` (R70). -/
abbrev Word128 := BitVec 128

/-- An edge event word `ew` (R75). -/
abbrev EdgeWord := BitVec 2

/-- A completion event word `cw` (R77). -/
abbrev CompletionWord := BitVec 1

end Sys2Proof
end

