-- ==== Sys2Proof/Config.lean ====
section
/-! DEFINITION. What an implementation fixes (00_scope.md R5): the constants the spec gives a value, and the `OPEN`
parameters, of which no value may be assumed. -/

namespace Sys2Proof

/-- The `OPEN` parameters of R5. They are arguments of the step, so a state carries them (DESIGN CHOICE, safe: log 2);
no operation writes them (R182(1)). -/
structure Params where
  /-- `PW_MIN`, in ticks. -/
  pwMin : Tick
  /-- `PW_MAX`, in ticks. -/
  pwMax : Tick
  /-- `IDT`, the inter-digit timeout, in ticks. -/
  idt : Tick
  /-- `TICK`, the real duration of one tick, in a unit of real time of the platform's choosing; no operation reads it
  (R199). -/
  tick : Nat
  /-- `CHUNK_BASE0`. -/
  chunkBase0 : Addr
  /-- `CHUNK_BASE1`. -/
  chunkBase1 : Addr
  /-- `CHUNK_BYTES`, the capacity of one Chunk in bytes. -/
  chunkBytes : Nat
  deriving DecidableEq, Repr, Inhabited

/-- The parameters of the machine at reset: free values, on which no proof can lean (R5 `OPEN`; log 2). -/
opaque Config.params : Params

/-- `IDLE_LEVEL`, the reset value of `last_level` (R5). -/
def Config.idleLevel : Bool := true

/-- `SAMPLE_BYTES`, the bytes of sample memory per output sample (R5, R51). -/
def Config.sampleBytes : Nat := 2

end Sys2Proof
end

