-- ==== Sys2Proof/Syntax.lean ====
section
/-! DEFINITION. The twelve operations of the set `PDHO-1` (30_encoding.md R78), one constructor for each row of
spec/opcode_table.json. An operand that no word carries is not here: the time `t` of EDGE and POLL (R72, R84) and the
input `cfg_ok` of START (R76) are inputs of the step. -/

namespace Sys2Proof

/-- One operation, with the operands its word carries (30_encoding.md R72, R78). -/
inductive Instr where
  /-- NOP (42_system.md R140). -/
  | nop
  /-- POLL (40_pulse_decoder.md R102). -/
  | poll
  /-- PDREAD (42_system.md R141). -/
  | pdread
  /-- START rate, addr, n (41_handoff.md R121). -/
  | start (rate : Rate) (addr : Addr) (n : SampleCount)
  /-- READY (41_handoff.md R122). -/
  | ready
  /-- ENQUEUE addr, n (41_handoff.md R123). -/
  | enqueue (addr : Addr) (n : SampleCount)
  /-- STOP (41_handoff.md R124). -/
  | stop
  /-- SWAP (41_handoff.md R126). -/
  | swap
  /-- PBREAD (42_system.md R142). -/
  | pbread
  /-- PBCUR (42_system.md R143). -/
  | pbcur
  /-- EDGE lvl (40_pulse_decoder.md R101); `lvl` is true for a high line. -/
  | edge (lvl : Bool)
  /-- COMPLETE (41_handoff.md R125). -/
  | complete
  deriving DecidableEq, Repr

end Sys2Proof
end

