-- ==== Sys2Proof/Machine/State.lean ====
section
/-! DEFINITION. The state: the twelve registers of 10_state.md R20, the arguments of the step (00_scope.md R9, which R20
keeps apart from the registers) and the outputs that leave the block (R11). All of it plain data. One-bit registers are
`Bool`, 1 being `true` (DESIGN CHOICE, safe: log 5). -/

namespace Sys2Proof.Machine

/-- The PulseState registers of sub-block PD (10_state.md R20). -/
structure PulseState where
  /-- `last_level`, 1 bit (R21): last observed level of the dial line, true for high. -/
  lastLevel : Bool
  /-- `fall_ts`, 32 bits (R22): time of the last falling edge taken. -/
  fallTs : Tick
  /-- `count`, 8 bits (R23): pulses accepted since the last emitted digit. -/
  count : PulseCount
  /-- `last_pulse_ts`, 32 bits (R24): time of the last accepted pulse. -/
  lastPulseTs : Tick
  deriving DecidableEq, Repr

/-- The registers of sub-block HO (10_state.md R20). -/
structure Handoff where
  /-- `mb_full`, 1 bit (R27): true when a PendingCommand exists. -/
  mbFull : Bool
  /-- `mb_addr`, 32 bits (R27): buffer-start of the PendingCommand. -/
  mbAddr : Addr
  /-- `mb_count`, 32 bits (R27): sample-count of the PendingCommand. -/
  mbCount : SampleCount
  /-- `playing`, 1 bit (R29): true when the engine is in state Playing. -/
  playing : Bool
  /-- `stop`, 1 bit (R30): the stop flag. -/
  stop : Bool
  /-- `cur_addr`, 32 bits (R32): source address last given to the output transfer. -/
  curAddr : Addr
  /-- `cur_count`, 32 bits (R32): length last given to the output transfer. -/
  curCount : SampleCount
  /-- `fill_sel`, 1 bit (R33): which Chunk is the fill-side one. -/
  fillSel : Bool
  deriving DecidableEq, Repr

/-- The result code of a host response, `hr[3:0]` (60_exceptions.md R150). -/
inductive ResultCode where
  /-- 0 `OK`. -/
  | ok
  /-- 1 `STOPPED` (R152). -/
  | stopped
  /-- 2 `ERR_RESOURCE` (R151). -/
  | errResource
  /-- 3 `ERR_ILLEGAL` (R153). -/
  | errIllegal
  deriving DecidableEq, Repr

/-- A host response, the fields of the word `hr` (30_encoding.md R73). -/
structure Response where
  code : ResultCode
  v : Bool
  d0 : Lane
  d1 : Lane
  d2 : Lane
  deriving DecidableEq, Repr

/-- An output command of port O (30_encoding.md R74, 41_handoff.md R128). -/
inductive OutCmd where
  | configureLoop (rate : Rate) (src : Addr) (len : SampleCount)
  | retarget (src : Addr) (len : SampleCount)
  | abort
  deriving DecidableEq, Repr

/-- What is on the block's inputs at one instant (30_encoding.md R70): up to one operation on each of the ports E, C and
H, all with the same `now` (20_memory.md R62). -/
structure Instant where
  /-- `rst` (10_state.md R41). -/
  rst : Bool
  /-- `now` (00_scope.md R10). -/
  now : Tick
  /-- `ew` (R75); with its strobe 0 it presents nothing. -/
  ew : EdgeWord
  /-- `cw` (R77); 0 presents nothing. -/
  cw : CompletionWord
  /-- `hc` (R71), if the host presents a command. -/
  hc : Option Word128
  /-- `cfg_ok` (R76). -/
  cfgOk : Bool
  deriving DecidableEq, Repr

/-- The state of the block, the inputs still to come and the outputs that have left it. -/
structure State where
  /-- Sub-block PD: the PulseState registers (R20). -/
  pd : PulseState
  /-- Sub-block HO: the handoff registers (R20). -/
  ho : Handoff
  /-- The parameters of R5, an argument of the step (log 2). -/
  params : Params
  /-- The time input `t` of the operation being executed: `now` as sampled at acceptance (R10; log 3). -/
  now : Tick
  /-- The input `cfg_ok` of the operation being executed (R76; log 3). -/
  cfgOk : Bool
  /-- What the agents and the platform will present, the next instant first. The block holds no queue (R38): this is its
  environment (DESIGN CHOICE, safe: log 1). -/
  inputs : List Instant
  /-- The host responses returned so far, oldest first (R11; log 4). -/
  responses : List Response
  /-- The commands emitted on port O so far, oldest first (R11, R74; log 4). -/
  portO : List OutCmd
  deriving DecidableEq, Repr

/-- The faults of the machine. It has none: "In every state and for every operation: the step is defined"
(70_reset_and_hazards.md R197; log 9). -/
inductive Fault where
  deriving DecidableEq, Repr

/-- The refusals of the machine. -/
inductive Refusal where
  /-- Raised by an arm of `exec` for an operation that has no meaning yet: safe. No arm is one. -/
  | notModelled (mnemonic : String)
  deriving DecidableEq, Repr

/-- The outcome of a step. -/
abbrev StepResult := Host.Outcome State Fault Refusal

/-- The reset values of sub-block PD (10_state.md R40). -/
def PulseState.reset : PulseState where
  lastLevel := Config.idleLevel
  fallTs := 0
  count := 0
  lastPulseTs := 0

/-- The reset values of sub-block HO (10_state.md R40). -/
def Handoff.reset : Handoff where
  mbFull := false
  mbAddr := 0
  mbCount := 0
  playing := false
  stop := false
  curAddr := 0
  curCount := 0
  fillSel := false

/-- The machine right after reset (R40, R180). The registers have the spec's values; the parameters are free (log 2),
the input pins hold values the model names (DESIGN CHOICE, unsafe: log 3), and nothing has been presented, answered or
emitted (log 1, log 4). -/
def State.reset : State where
  pd := PulseState.reset
  ho := Handoff.reset
  params := Config.params
  now := 0
  cfgOk := true
  inputs := []
  responses := []
  portO := []

end Sys2Proof.Machine
end

