-- ==== Sys2Proof/Machine/Flags.lean ====
section
/-! DEFINITION. The derived flag `ready` (10_state.md R35) and the two status images (R36). The block has no condition
codes (R35). -/

namespace Sys2Proof.Machine

/-- `ready = playing and (not stop) and (not mb_full)` (R35). -/
def Handoff.ready (h : Handoff) : Bool := h.playing && !h.stop && !h.mbFull

/-- `PD_STAT`: `count` in bits 7 to 0, `last_level` in bit 8, the rest 0 (R36). -/
def PulseState.status (p : PulseState) : Lane := 0#23 ++ BitVec.ofBool p.lastLevel ++ p.count

/-- `HO_STAT`: bits 0 to 4 are `playing`, `stop`, `mb_full`, `ready`, `fill_sel`, the rest 0 (R36). -/
def Handoff.status (h : Handoff) : Lane :=
  0#27 ++ BitVec.ofBool h.fillSel ++ BitVec.ofBool h.ready ++ BitVec.ofBool h.mbFull ++ BitVec.ofBool h.stop
    ++ BitVec.ofBool h.playing

end Sys2Proof.Machine
end

