-- ==== Sys2Proof/Machine/Ops.lean ====
section
/-! DEFINITION. The named operations over the registers and the outputs: what R8 writes as `name <- v`, `rsp <- (...)`,
`emit CMD(args)` and `raise <Error>`. The block has no memory (20_memory.md R50) and no trap entry or return
(60_exceptions.md R161, R162): raising an error is the one exception-like operation, `State.raise`. -/

namespace Sys2Proof.Machine

/-- Replace the registers of sub-block PD. -/
def State.withPd (s : State) (pd : PulseState) : State := { s with pd := pd }

/-- Replace the registers of sub-block HO. -/
def State.withHo (s : State) (ho : Handoff) : State := { s with ho := ho }

/-- `rsp <- r`: return the host response (R8, R73). -/
def State.respond (s : State) (r : Response) : State := { s with responses := s.responses ++ [r] }

/-- `emit c`: append a command to port O (R8, R74). -/
def State.emit (s : State) (c : OutCmd) : State := { s with portO := s.portO ++ [c] }

/-- Sample the inputs `now` and `cfg_ok` at the acceptance of an operation (R10, R76), and leave `inputs` still to
come. -/
def State.sample (s : State) (now : Tick) (cfgOk : Bool) (inputs : List Instant) : State :=
  { s with now := now, cfgOk := cfgOk, inputs := inputs }

/-- The response `(OK, v, 0, 0, 0)`. -/
def Response.answer (v : Bool) : Response where
  code := .ok
  v := v
  d0 := 0
  d1 := 0
  d2 := 0

/-- The response `(OK, v, d0, d1, d2)`. -/
def Response.data (v : Bool) (d0 d1 d2 : Lane) : Response where
  code := .ok
  v := v
  d0 := d0
  d1 := d1
  d2 := d2

/-- The response of an error: its code, every other field 0 (R73). -/
def Response.error (code : ResultCode) : Response where
  code := code
  v := false
  d0 := 0
  d1 := 0
  d2 := 0

/-- `raise <Error>`: no state change, and the error's code in the response (R8, 60_exceptions.md R150, R154). -/
def State.raise (s : State) (code : ResultCode) : State := s.respond (Response.error code)

/-- Reset: all twelve registers take the values of R40 (R41, R180). No response, no output command (R181). -/
def State.resetRegisters (s : State) : State := { s with pd := PulseState.reset, ho := Handoff.reset }

/-- `last_level <- lvl`. -/
def PulseState.observe (p : PulseState) (lvl : Bool) : PulseState := { p with lastLevel := lvl }

/-- `fall_ts <- t`. -/
def PulseState.recordFall (p : PulseState) (t : Tick) : PulseState := { p with fallTs := t }

/-- `count <- c; last_pulse_ts <- t`: the two writes of an accepted pulse (R101). -/
def PulseState.recordPulse (p : PulseState) (c : PulseCount) (t : Tick) : PulseState :=
  { p with count := c, lastPulseTs := t }

/-- `count <- 0`. -/
def PulseState.clearCount (p : PulseState) : PulseState := { p with count := 0 }

/-- `mb_full <- 0`; `mb_addr` and `mb_count` keep their values (R27). -/
def Handoff.clearMailbox (h : Handoff) : Handoff := { h with mbFull := false }

/-- Install a PendingCommand: the three mailbox registers together (R58, R123). -/
def Handoff.install (h : Handoff) (addr : Addr) (n : SampleCount) : Handoff :=
  { h with mbFull := true, mbAddr := addr, mbCount := n }

/-- Write the shadow of the running transfer (R32). -/
def Handoff.setShadow (h : Handoff) (addr : Addr) (n : SampleCount) : Handoff :=
  { h with curAddr := addr, curCount := n }

/-- `playing <- b`. -/
def Handoff.setPlaying (h : Handoff) (b : Bool) : Handoff := { h with playing := b }

/-- `stop <- b`. -/
def Handoff.setStop (h : Handoff) (b : Bool) : Handoff := { h with stop := b }

/-- `fill_sel <- ~fill_sel` (R126). -/
def Handoff.swapRoles (h : Handoff) : Handoff := { h with fillSel := !h.fillSel }

end Sys2Proof.Machine
end

