-- ==== Sys2Proof/Machine/Operands.lean ====
section
/-! DEFINITION. The inputs an operation uses beside its word, and the arithmetic laws of 40_pulse_decoder.md R103, R104
and R105. -/

namespace Sys2Proof.Machine

/-- The operand `t`: the input `now` as sampled at acceptance (00_scope.md R10). -/
def State.t (s : State) : Tick := s.now

/-- The answer of the output device to CONFIGURE_LOOP (30_encoding.md R76). -/
def State.configured (s : State) : Bool := s.cfgOk

/-- `a -_TW b`, modulo 2^32 (R103). -/
def elapsed (a b : Tick) : Tick := a - b

/-- The window test `PW_MIN <= dur <= PW_MAX`, both ends included (R104). -/
def inWindow (p : Params) (dur : Tick) : Bool := p.pwMin ≤ dur && dur ≤ p.pwMax

/-- The timeout test `quiet > IDT`, strict (R104). -/
def pastTimeout (p : Params) (quiet : Tick) : Bool := p.idt < quiet

/-- `sat_inc(c)`: the increment, saturating at 255 (R105). -/
def satInc (c : PulseCount) : PulseCount := if c = 255 then 255 else c + 1

/-- `zext_32(count)` (R7). -/
def zext32 (c : PulseCount) : Lane := c.setWidth 32

end Sys2Proof.Machine
end

