-- ==== Sys2Proof/Machine/Handoff.lean ====
section
/-! DEFINITION. Sub-block HO: START, READY, ENQUEUE, STOP, COMPLETE, SWAP (41_handoff.md). -/

namespace Sys2Proof.Machine

/-- The registers after a START that the output device accepted (R121): Playing, not stopping, mailbox empty, the shadow
at the operands. -/
def Handoff.begin (h : Handoff) (addr : Addr) (n : SampleCount) : Handoff :=
  ((h.clearMailbox.setShadow addr n).setPlaying true).setStop false

/-- START (R121). CONFIGURE_LOOP is emitted in either case; a refused configuration raises ERR_RESOURCE and changes no
register (R151). `n = 0`, `addr = 0` and START while Playing run as the rule says (log 10). -/
def execStart (rate : Rate) (addr : Addr) (n : SampleCount) (s : State) : StepResult :=
  let asked := s.emit (.configureLoop rate addr n)
  if s.configured then .next ((asked.withHo (s.ho.begin addr n)).respond (Response.answer false))
  else .next (asked.raise .errResource)

/-- READY (R122). -/
def execReady (s : State) : StepResult := .next (s.respond (Response.answer s.ho.ready))

/-- ENQUEUE (R123): overwrites, and is a no-op answered STOPPED after a stop request (R152). -/
def execEnqueue (addr : Addr) (n : SampleCount) (s : State) : StepResult :=
  if s.ho.stop then .next (s.raise .stopped)
  else .next ((s.withHo (s.ho.install addr n)).respond (Response.answer false))

/-- STOP (R124): its three effects in every state. -/
def execStop (s : State) : StepResult :=
  .next (((s.withHo ((s.ho.setStop true).setPlaying false)).emit .abort).respond (Response.answer false))

/-- COMPLETE (R125): take and clear the mailbox in every state; while Playing, retarget to the taken pair, or drain to
Idle if there was none. It has no response and raises nothing (R155). -/
def execComplete (s : State) : StepResult :=
  let taken := s.ho.clearMailbox
  if s.ho.playing then
    if s.ho.mbFull then
      .next ((s.withHo (taken.setShadow s.ho.mbAddr s.ho.mbCount)).emit (.retarget s.ho.mbAddr s.ho.mbCount))
    else .next ((s.withHo (taken.setPlaying false)).emit .abort)
  else .next (s.withHo taken)

/-- SWAP (R126): answers the new `fill_sel`. -/
def execSwap (s : State) : StepResult :=
  .next ((s.withHo s.ho.swapRoles).respond (Response.answer (!s.ho.fillSel)))

end Sys2Proof.Machine
end

