-- ==== Sys2Proof/Machine/PulseDecoder.lean ====
section
/-! DEFINITION. Sub-block PD: EDGE and POLL (40_pulse_decoder.md). -/

namespace Sys2Proof.Machine

/-- The effect of an EDGE on PulseState (R101): a fall while high stamps `fall_ts`; a rise while low counts the pulse if
its duration is in the window; any other notification writes nothing; `last_level <- lvl` always. -/
def edgeUpdate (p : Params) (t : Tick) (lvl : Bool) (pd : PulseState) : PulseState :=
  let edged : PulseState :=
    if pd.lastLevel && !lvl then pd.recordFall t
    else if !pd.lastLevel && lvl then
      if inWindow p (elapsed t pd.fallTs) then pd.recordPulse (satInc pd.count) t else pd
    else pd
  edged.observe lvl

/-- Whether a POLL at `t` finds a completed digit (R102). -/
def digitDone (p : Params) (t : Tick) (pd : PulseState) : Bool :=
  pd.count != 0 && pastTimeout p (elapsed t pd.lastPulseTs)

/-- EDGE (R101). It has no response and raises nothing (R155). -/
def execEdge (lvl : Bool) (s : State) : StepResult :=
  .next (s.withPd (edgeUpdate s.params s.t lvl s.pd))

/-- POLL (R102): a completed digit is the raw count (R106), which is then cleared. -/
def execPoll (s : State) : StepResult :=
  if digitDone s.params s.t s.pd then
    .next ((s.withPd s.pd.clearCount).respond (Response.data true (zext32 s.pd.count) 0 0))
  else .next (s.respond (Response.answer false))

end Sys2Proof.Machine
end

