-- ==== Sys2Proof/Machine/System.lean ====
section
/-! DEFINITION. The system operations NOP, PDREAD, PBREAD, PBCUR and the illegal command (42_system.md). -/

namespace Sys2Proof.Machine

/-- NOP (R140). -/
def execNop (s : State) : StepResult := .next (s.respond (Response.answer false))

/-- PDREAD (R141). -/
def execPdread (s : State) : StepResult :=
  .next (s.respond (Response.data false s.pd.status s.pd.fallTs s.pd.lastPulseTs))

/-- PBREAD (R142): with the mailbox empty it shows the last pair the mailbox held. -/
def execPbread (s : State) : StepResult :=
  .next (s.respond (Response.data false s.ho.status s.ho.mbAddr s.ho.mbCount))

/-- PBCUR (R143). -/
def execPbcur (s : State) : StepResult :=
  .next (s.respond (Response.data s.ho.playing s.ho.curAddr s.ho.curCount 0))

/-- An illegal host command (R144): `raise ERR_ILLEGAL`. It is no operation of the table, so the step calls it. -/
def execIllegal (s : State) : StepResult := .next (s.raise .errIllegal)

end Sys2Proof.Machine
end

