-- ==== Sys2Proof/Machine/Dispatch.lean ====
section
/-! DEFINITION. One arm for each operation of spec/opcode_table.json, each a direct call of its meaning. -/

namespace Sys2Proof.Machine

def exec (i : Instr) (s : State) : Host.Outcome State Fault Refusal :=
  match i with
  | .nop => Sys2Proof.Machine.execNop s
  | .poll => Sys2Proof.Machine.execPoll s
  | .pdread => Sys2Proof.Machine.execPdread s
  | .start rate addr n => Sys2Proof.Machine.execStart rate addr n s
  | .ready => Sys2Proof.Machine.execReady s
  | .enqueue addr n => Sys2Proof.Machine.execEnqueue addr n s
  | .stop => Sys2Proof.Machine.execStop s
  | .swap => Sys2Proof.Machine.execSwap s
  | .pbread => Sys2Proof.Machine.execPbread s
  | .pbcur => Sys2Proof.Machine.execPbcur s
  | .edge lvl => Sys2Proof.Machine.execEdge lvl s
  | .complete => Sys2Proof.Machine.execComplete s

end Sys2Proof.Machine
end

