-- ==== Sys2Proof/WellFormed.lean ====
section
/-! DEFINITION. What the spec asks of a value before it means something: of a written line (30_encoding.md R82, and
R164 for who may issue what) and of the parameters (00_scope.md R6). An operation itself needs no check: each operand is
one whole field of its width (R72), so every value of `Instr` is well formed. -/

namespace Sys2Proof

/-- The three agents that execute steps of the block (00_scope.md R2). R82 writes them H, E and C. -/
inductive Agent where
  | host
  | dialEdge
  | completion
  deriving DecidableEq, Repr

/-- The agent that may issue an operation: its port fixes what it can do (60_exceptions.md R164). -/
def Instr.agent : Instr → Agent
  | .nop => .host
  | .poll => .host
  | .pdread => .host
  | .start _ _ _ => .host
  | .ready => .host
  | .enqueue _ _ => .host
  | .stop => .host
  | .swap => .host
  | .pbread => .host
  | .pbcur => .host
  | .edge _ => .dialEdge
  | .complete => .completion

/-- The operations that use the time input `t` (00_scope.md R9): EDGE and POLL. -/
def Instr.usesTime : Instr → Bool
  | .nop => false
  | .poll => true
  | .pdread => false
  | .start _ _ _ => false
  | .ready => false
  | .enqueue _ _ => false
  | .stop => false
  | .swap => false
  | .pbread => false
  | .pbcur => false
  | .edge _ => true
  | .complete => false

/-- The operations that use the input `cfg_ok` (00_scope.md R9): START. -/
def Instr.usesCfgOk : Instr → Bool
  | .nop => false
  | .poll => false
  | .pdread => false
  | .start _ _ _ => true
  | .ready => false
  | .enqueue _ _ => false
  | .stop => false
  | .swap => false
  | .pbread => false
  | .pbcur => false
  | .edge _ => false
  | .complete => false

/-- A written line `<agent>: <MNEMONIC> <operands> [@<t>] [?<cfg_ok>]` (30_encoding.md R82). -/
structure Line where
  agent : Agent
  instr : Instr
  time : Option Tick
  cfgOk : Option Bool
  deriving DecidableEq, Repr

/-- The agent of a line is the one that may issue its operation (R82, R164). -/
def Line.agentFits (l : Line) : Bool := l.agent = l.instr.agent

/-- `@<t>` is mandatory on EDGE and POLL (R82). -/
def Line.timeGiven (l : Line) : Bool := !l.instr.usesTime || l.time.isSome

/-- `?<cfg_ok>` is mandatory on START (R82). -/
def Line.cfgOkGiven (l : Line) : Bool := !l.instr.usesCfgOk || l.cfgOk.isSome

/-- A well-formed line (R82, R164). -/
def Line.wf (l : Line) : Bool := l.agentFits && l.timeGiven && l.cfgOkGiven

/-- `PW_MIN <= PW_MAX` (00_scope.md R6). -/
def Params.windowOrdered (p : Params) : Bool := p.pwMin ≤ p.pwMax

/-- Neither Chunk wraps past `2^AW` (R6). -/
def Params.chunksInSpace (p : Params) : Bool :=
  p.chunkBase0.toNat + p.chunkBytes ≤ 2 ^ 32 && p.chunkBase1.toNat + p.chunkBytes ≤ 2 ^ 32

/-- The two Chunks do not overlap (R6). -/
def Params.chunksDisjoint (p : Params) : Bool :=
  p.chunkBase0.toNat + p.chunkBytes ≤ p.chunkBase1.toNat || p.chunkBase1.toNat + p.chunkBytes ≤ p.chunkBase0.toNat

/-- The constraints R6 assumes of the parameters. The step does not check them (log 12). -/
def Params.wf (p : Params) : Bool := p.windowOrdered && p.chunksInSpace && p.chunksDisjoint

end Sys2Proof
end

