-- ==== Sys2Proof/Decode.lean ====
section
/-! DEFINITION. Decoding (30_encoding.md R71, R72, R75, R77, R78, R79, R85), total on every word of every port and
rejecting by name, and the encoder written from the same formats. The format is told by the port (R81). -/

namespace Sys2Proof

/-- A word on one of the three ports that present operations (R70). -/
inductive PortWord where
  /-- A host command word `hc` (R71). -/
  | h (hc : Word128)
  /-- An edge event word `ew` (R75). -/
  | e (ew : EdgeWord)
  /-- A completion event word `cw` (R77). -/
  | c (cw : CompletionWord)
  deriving DecidableEq, Repr

/-- Why a host command is illegal (R79). -/
inductive IllegalCommand where
  /-- `hc[31:4] != 0`. -/
  | reservedBits
  /-- `op` is 0x3 or 0xB to 0xF. -/
  | reservedOp
  deriving DecidableEq, Repr

/-- What a word on a port denotes. -/
inductive Decoded where
  /-- An operation. -/
  | op (i : Instr)
  /-- An illegal host command (R85). -/
  | illegal (why : IllegalCommand)
  /-- An event word whose strobe is 0: it presents nothing (R75, R77). -/
  | nothing
  deriving DecidableEq, Repr

/-- `op`, bits 3 to 0 (R71). -/
def opField (hc : Word128) : BitVec 4 := hc.extractLsb' 0 4

/-- `rsv`, bits 31 to 4 (R71). -/
def rsvField (hc : Word128) : BitVec 28 := hc.extractLsb' 4 28

/-- `A`, bits 63 to 32: `addr` (R71, R72). -/
def addrField (hc : Word128) : Addr := hc.extractLsb' 32 32

/-- `N`, bits 95 to 64: `n` (R71, R72). -/
def countField (hc : Word128) : SampleCount := hc.extractLsb' 64 32

/-- `R`, bits 127 to 96: `rate` (R71, R72). -/
def rateField (hc : Word128) : Rate := hc.extractLsb' 96 32

/-- Decoding of port H, total on all 2^128 words (R85): the reserved bits first, then the operation code. -/
def decodeHost (hc : Word128) : Decoded :=
  if rsvField hc ≠ 0#28 then .illegal .reservedBits
  else
    match (opField hc).toNat with
    | 0x0 => .op .nop
    | 0x1 => .op .poll
    | 0x2 => .op .pdread
    | 0x4 => .op (.start (rateField hc) (addrField hc) (countField hc))
    | 0x5 => .op .ready
    | 0x6 => .op (.enqueue (addrField hc) (countField hc))
    | 0x7 => .op .stop
    | 0x8 => .op .swap
    | 0x9 => .op .pbread
    | 0xA => .op .pbcur
    | _ => .illegal .reservedOp

/-- Decoding of port E: `ew[1]` is the strobe and `ew[0]` is `lvl` (R75, R78). -/
def decodeEdge (ew : EdgeWord) : Decoded :=
  if ew.getLsbD 1 then .op (.edge (ew.getLsbD 0)) else .nothing

/-- Decoding of port C: `cw[0]` is the strobe (R77, R78). -/
def decodeCompletion (cw : CompletionWord) : Decoded :=
  if cw.getLsbD 0 then .op .complete else .nothing

/-- Decoding, the format told by the port (R81). -/
def decode : PortWord → Decoded
  | .h hc => decodeHost hc
  | .e ew => decodeEdge ew
  | .c cw => decodeCompletion cw

/-- A 128-bit word from its four lanes, most significant first, as R82 writes it: `R_N_A_ctl`. -/
def lanes (l3 l2 l1 l0 : Lane) : Word128 := l3 ++ l2 ++ l1 ++ l0

/-- The word of an operation (R71, R75, R77, R78). A field the operation ignores is written as 0 (DESIGN CHOICE, safe:
log 16). -/
def encode : Instr → PortWord
  | .nop => .h (lanes 0 0 0 0x0)
  | .poll => .h (lanes 0 0 0 0x1)
  | .pdread => .h (lanes 0 0 0 0x2)
  | .start rate addr n => .h (lanes rate n addr 0x4)
  | .ready => .h (lanes 0 0 0 0x5)
  | .enqueue addr n => .h (lanes 0 n addr 0x6)
  | .stop => .h (lanes 0 0 0 0x7)
  | .swap => .h (lanes 0 0 0 0x8)
  | .pbread => .h (lanes 0 0 0 0x9)
  | .pbcur => .h (lanes 0 0 0 0xA)
  | .edge lvl => .e (BitVec.ofBool true ++ BitVec.ofBool lvl)
  | .complete => .c 1

/-- The port word that a word numbered as spec/opcode_table.json numbers it stands for. A row of 1 bit is format C and a
row of 2 bits format E. The table's rows counted in whole bytes give 8 bits to both; then `ew[1]`, the strobe of format
E, tells them apart. Every longer word is format H, its bits above `nbits` 0 (log 7). -/
def tableWord (nbits w : Nat) : Option PortWord :=
  if nbits ≤ 1 then (if w < 2 then some (.c (BitVec.ofNat 1 w)) else none)
  else if nbits ≤ 2 then (if w < 4 then some (.e (BitVec.ofNat 2 w)) else none)
  else if nbits ≤ 8 then
    (if w < 2 then some (.c (BitVec.ofNat 1 w)) else if w < 4 then some (.e (BitVec.ofNat 2 w)) else none)
  else (if w < 2 ^ 128 then some (.h (BitVec.ofNat 128 w)) else none)

/-- The operation a decoded word stands for, if it stands for one. -/
def Decoded.instr? : Decoded → Option Instr
  | .op i => some i
  | .illegal _ => none
  | .nothing => none

/-- The operation the decoder reads from a word of spec/opcode_table.json. -/
def decodeTableWord (nbits w : Nat) : Option Instr :=
  match tableWord nbits w with
  | some pw => (decode pw).instr?
  | none => none

end Sys2Proof
end

