-- ==== Sys2Proof/Machine/Fetch.lean ====
section
/-! DEFINITION. How the block accepts what its inputs present (20_memory.md R60, R62; 10_state.md R38, R41). It fetches
nothing (R34): an operation is presented on a port, and one step executes one operation. -/

namespace Sys2Proof.Machine

/-- What the block takes from its inputs in one step. -/
inductive Offer where
  /-- Nothing is presented. -/
  | idle
  /-- `rst` is asserted (R41). -/
  | reset
  /-- An operation is accepted. -/
  | op (i : Instr)
  /-- The host presents an illegal command (R85). -/
  | illegal (why : IllegalCommand)
  deriving DecidableEq, Repr

/-- The offer a decoded word makes. -/
def offerOf : Decoded → Offer
  | .op i => .op i
  | .illegal why => .illegal why
  | .nothing => .idle

/-- Whether an instant presents nothing on any port. -/
def Instant.silent (p : Instant) : Bool := !p.ew.getLsbD 1 && !p.cw.getLsbD 0 && p.hc.isNone

/-- What is left of an instant to be accepted: itself, unless it presents nothing more. -/
def Instant.remainder (p : Instant) : Option Instant := if p.silent then none else some p

/-- What the block accepts first of an instant, and what then remains of it: with `rst` asserted no operation (R41; the
operations presented with it are gone, log 8); else the EDGE, then the COMPLETE, then the host command (R62). -/
def Instant.accept (p : Instant) : Offer × Option Instant :=
  if p.rst then (.reset, none)
  else if p.ew.getLsbD 1 then (offerOf (decodeEdge p.ew), Instant.remainder { p with ew := 0 })
  else if p.cw.getLsbD 0 then (offerOf (decodeCompletion p.cw), Instant.remainder { p with cw := 0 })
  else
    match p.hc with
    | some hc => (offerOf (decodeHost hc), none)
    | none => (.idle, none)

/-- Accept from the inputs: the offer, and the state with `now` and `cfg_ok` sampled (R10) and the rest of the inputs
still to come. With no input left nothing is presented and nothing changes (log 6). -/
def State.accept (s : State) : Offer × State :=
  match s.inputs with
  | [] => (.idle, s)
  | p :: rest => (p.accept.1, s.sample p.now p.cfgOk (p.accept.2.toList ++ rest))

/-- An instant that presents one port word and nothing else, with `now` and `cfg_ok` given. -/
def Instant.carrying (now : Tick) (cfgOk : Bool) : PortWord → Instant
  | .h hc => { rst := false, now := now, ew := 0, cw := 0, hc := some hc, cfgOk := cfgOk }
  | .e ew => { rst := false, now := now, ew := ew, cw := 0, hc := none, cfgOk := cfgOk }
  | .c cw => { rst := false, now := now, ew := 0, cw := cw, hc := none, cfgOk := cfgOk }

/-- The state with one more port word presented before all other inputs, the input pins staying as they are (log 7). -/
def State.present (s : State) (w : PortWord) : State :=
  { s with inputs := Instant.carrying s.now s.cfgOk w :: s.inputs }

end Sys2Proof.Machine
end

