-- ==== Sys2Proof/Machine/Step.lean ====
section
/-! DEFINITION. The step (00_scope.md R9): accept one operation and execute it whole. -/

namespace Sys2Proof.Machine

/-- One step: the accepted operation, or a reset (10_state.md R41), or an illegal command (42_system.md R144), or nothing
where nothing is presented (log 6). -/
def step (s : State) : Host.Outcome State Fault Refusal :=
  match s.accept with
  | (.op i, s') => exec i s'
  | (.reset, s') => .next s'.resetRegisters
  | (.illegal _, s') => execIllegal s'
  | (.idle, s') => .next s'

/-- The state with the word of spec/opcode_table.json presented on its port before all other inputs, so that the next
step accepts it (log 7). -/
def State.withFetchWord (s : State) (nbits w : Nat) : State :=
  match tableWord nbits w with
  | some pw => s.present pw
  | none => s

end Sys2Proof.Machine
end

