-- ==== Sys2Proof/Machine/Ports.lean ====
section
/-! DEFINITION. The words in which responses and output commands leave the block: the host response word `hr`
(30_encoding.md R73) and the output command word `oc` (R74). -/

namespace Sys2Proof.Machine

/-- The numeric code of a result, `hr[3:0]` (R73, 60_exceptions.md R150). -/
def ResultCode.bits : ResultCode → BitVec 4
  | .ok => 0
  | .stopped => 1
  | .errResource => 2
  | .errIllegal => 3

/-- The response word `hr` (R73). -/
def Response.word (r : Response) : Word128 := lanes r.d2 r.d1 r.d0 (0#27 ++ BitVec.ofBool r.v ++ r.code.bits)

/-- The output command word `oc` (R74). -/
def OutCmd.word : OutCmd → Word128
  | .configureLoop rate src len => lanes rate len src 1
  | .retarget src len => lanes 0 len src 2
  | .abort => lanes 0 0 0 3

end Sys2Proof.Machine
end

