-- ==== Sys2Proof/Machine/Written.lean ====
section
/-! DEFINITION. Written programs (30_encoding.md R82, R83): a line as what it presents at an instant, and the
pseudo-operations. -/

namespace Sys2Proof.Machine

/-- The instant at which a line presents its operation. A time or a `cfg_ok` that the line leaves out is meaningless to
its operation (R82), and the pins then keep the values given. -/
def lineInstant (now : Tick) (cfgOk : Bool) (l : Line) : Instant :=
  Instant.carrying (l.time.getD now) (l.cfgOk.getD cfgOk) (encode l.instr)

/-- The state with a program presented: "The line order of a program is the acceptance order" (R82). -/
def State.loadLines (s : State) (ls : List Line) : State :=
  { s with inputs := ls.map (lineInstant s.now s.cfgOk) ++ s.inputs }

/-- `E: EDGE lvl @t`. -/
def edgeLine (lvl : Bool) (t : Tick) : Line :=
  { agent := .dialEdge, instr := .edge lvl, time := some t, cfgOk := none }

/-- `C: COMPLETE`. -/
def completeLine : Line := { agent := .completion, instr := .complete, time := none, cfgOk := none }

/-- `H: <operation>` for an operation that uses no input. -/
def hostLine (i : Instr) : Line := { agent := .host, instr := i, time := none, cfgOk := none }

/-- `H: POLL @t`. -/
def pollLine (t : Tick) : Line := { agent := .host, instr := .poll, time := some t, cfgOk := none }

/-- `H: START rate, addr, n ?cfg_ok`. -/
def startLine (rate : Rate) (addr : Addr) (n : SampleCount) (cfgOk : Bool) : Line :=
  { agent := .host, instr := .start rate addr n, time := none, cfgOk := some cfgOk }

/-- The pseudo-operations (R83). -/
inductive PseudoOp where
  /-- `PULSE @a, @b`: a low pulse from time `a` to time `b`. -/
  | pulse (a b : Tick)
  /-- `GLITCH @a, @b`: the same expansion, used where the duration is outside the window. -/
  | glitch (a b : Tick)
  /-- `NEXTCHUNK addr, n`. -/
  | nextchunk (addr : Addr) (n : SampleCount)
  /-- `DIGIT? @t`. -/
  | digit (t : Tick)
  deriving DecidableEq, Repr

/-- The expansion of a pseudo-operation (R83). -/
def PseudoOp.expand : PseudoOp → List Line
  | .pulse a b => [edgeLine false a, edgeLine true b]
  | .glitch a b => [edgeLine false a, edgeLine true b]
  | .nextchunk addr n => [hostLine .ready, hostLine .swap, hostLine (.enqueue addr n)]
  | .digit t => [pollLine t]

end Sys2Proof.Machine
end

