-- ==== Sys2Proof/Safety.lean ====
section
/-! DEFINITION. The terms claims about runs are made in: executions as acceptance orders (20_memory.md R60), the
invariant of the handoff registers (10_state.md R39), the engine's states and transition table (41_handoff.md R127), the
lending rule (20_memory.md R51 to R53), and the duties of host and platform (70_reset_and_hazards.md), which the block
does not enforce. -/

namespace Sys2Proof.Machine

/-- One operation with the inputs of its step (00_scope.md R9). -/
structure Event where
  op : Instr
  t : Tick
  cfgOk : Bool
  deriving DecidableEq, Repr

/-- Execute one event. -/
def execEvent (e : Event) (s : State) : StepResult := exec e.op { s with now := e.t, cfgOk := e.cfgOk }

/-- Execute operations one at a time in their acceptance order (R60), each with its own inputs. -/
def execAll : List Event → State → StepResult
  | [], s => .next s
  | e :: es, s =>
    match execEvent e s with
    | .next t => execAll es t
    | .fault r => .fault r
    | .refused r => .refused r

/-- The event a written line stands for, the inputs it leaves out taken from the pins. -/
def eventOf (now : Tick) (cfgOk : Bool) (l : Line) : Event :=
  { op := l.instr, t := l.time.getD now, cfgOk := l.cfgOk.getD cfgOk }

/-- `not (playing and stop)`, R39(a). -/
abbrev Handoff.Exclusive (h : Handoff) : Prop := ¬(h.playing = true ∧ h.stop = true)

/-- The operations of sub-block PD: the only ones that read or write PulseState (40_pulse_decoder.md R100, R141). -/
def isPdOp : Instr → Bool
  | .nop => false
  | .poll => true
  | .pdread => true
  | .start _ _ _ => false
  | .ready => false
  | .enqueue _ _ => false
  | .stop => false
  | .swap => false
  | .pbread => false
  | .pbcur => false
  | .edge _ => true
  | .complete => false

/-- The durations of the low periods in a sequence of level notifications `(lvl, t)`, from the level last observed and the
time of the last fall: each from a fall to the next rise, modulo 2^32 (40_pulse_decoder.md R107, R110). -/
def lowDurations : Bool → Tick → List (Bool × Tick) → List Tick
  | _, _, [] => []
  | true, _, (false, t) :: r => lowDurations false t r
  | false, f, (true, t) :: r => (t - f) :: lowDurations true f r
  | true, f, (true, _) :: r => lowDurations true f r
  | false, f, (false, _) :: r => lowDurations false f r

/-- The stored states of the engine as R127 names them. -/
inductive EngineState where
  /-- Idle with `stop = 0`. -/
  | idle
  /-- Idle/s: Idle with `stop = 1`. -/
  | idleStopped
  /-- Playing. -/
  | playing
  deriving DecidableEq, Repr

/-- The engine state the registers stand for (10_state.md R31). -/
def Handoff.engine (h : Handoff) : EngineState :=
  if h.playing then .playing else if h.stop then .idleStopped else .idle

/-- The kind of an output command, `oc[1:0]` (30_encoding.md R74). -/
def OutCmd.kind : OutCmd → Nat
  | .configureLoop _ _ _ => 1
  | .retarget _ _ => 2
  | .abort => 3

/-- The rows of R127: from the engine state, whether the mailbox is full and `cfg_ok`, the engine state after, whether the
mailbox is full after, and the kinds of the commands emitted. -/
def transition (e : EngineState) (full cfgOk : Bool) : Instr → EngineState × Bool × List Nat
  | .start _ _ _ => if cfgOk then (.playing, false, [1]) else (e, full, [1])
  | .complete =>
    match e with
    | .playing => if full then (.playing, false, [2]) else (.idle, false, [3])
    | .idle => (.idle, false, [])
    | .idleStopped => (.idleStopped, false, [])
  | .stop => (.idleStopped, full, [3])
  | .enqueue _ _ =>
    match e with
    | .playing => (.playing, true, [])
    | .idle => (.idle, true, [])
    | .idleStopped => (.idleStopped, full, [])
  | .nop => (e, full, [])
  | .poll => (e, full, [])
  | .pdread => (e, full, [])
  | .ready => (e, full, [])
  | .swap => (e, full, [])
  | .pbread => (e, full, [])
  | .pbcur => (e, full, [])
  | .edge _ => (e, full, [])

/-- Whether byte `b` of sample memory is in the region `(addr, n)` (20_memory.md R51). For a pair that would pass `2^AW`,
which R51 calls no region without saying what it then lends, the bytes are counted all the same, those at and above `2^32`
too, and none wraps to a low address (DESIGN CHOICE, unsafe: log 17). -/
def inRegion (addr : Addr) (n : SampleCount) (b : Nat) : Bool :=
  addr.toNat ≤ b && b < addr.toNat + n.toNat * Config.sampleBytes

/-- A pair names a region only if it does not pass `2^AW` (R51). -/
def isRegion (addr : Addr) (n : SampleCount) : Bool := addr.toNat + n.toNat * Config.sampleBytes ≤ 2 ^ 32

/-- The base of Chunk `k` (R52). -/
def chunkBase (p : Params) (k : Bool) : Addr := if k then p.chunkBase1 else p.chunkBase0

/-- Whether byte `b` is in Chunk `k` (R52). -/
def inChunk (p : Params) (k : Bool) (b : Nat) : Bool :=
  (chunkBase p k).toNat ≤ b && b < (chunkBase p k).toNat + p.chunkBytes

/-- Whether the region `(addr, n)` lies inside Chunk `k` (R52). -/
def regionInChunk (p : Params) (k : Bool) (addr : Addr) (n : SampleCount) : Bool :=
  (chunkBase p k).toNat ≤ addr.toNat
    && addr.toNat + n.toNat * Config.sampleBytes ≤ (chunkBase p k).toNat + p.chunkBytes

/-- Whether byte `b` is lent (R53): it is in the shadow while Playing, or in the PendingCommand. A PendingCommand left in
the mailbox by STOP is lent no more (R124(e); DEDUCED, safe: log 11). A START answered ERR_RESOURCE and an ENQUEUE answered
STOPPED lend nothing, not even until the next step (DESIGN CHOICE, unsafe: log 18). A pair that is no region lends its bytes
as `inRegion` counts them (log 17). -/
def Handoff.lends (h : Handoff) (b : Nat) : Bool :=
  (h.playing && inRegion h.curAddr h.curCount b) || (h.mbFull && !h.stop && inRegion h.mbAddr h.mbCount b)

/-- The duty of the host at an operation: a region is not empty (93_implementation_defined.md U4) and lies in the
fill-side Chunk (70_reset_and_hazards.md R194), ENQUEUE and SWAP come only while `ready` (R186, R194). Where these rules ask
that a READY has returned 1 before, this asks that `ready` is 1 at the operation itself (DESIGN CHOICE, safe: log 19). -/
def hostDuty (s : State) : Instr → Bool
  | .start _ addr n => n != 0 && isRegion addr n && regionInChunk s.params s.ho.fillSel addr n
  | .enqueue addr n => n != 0 && isRegion addr n && s.ho.ready && regionInChunk s.params s.ho.fillSel addr n
  | .swap => s.ho.ready
  | .nop => true
  | .poll => true
  | .pdread => true
  | .ready => true
  | .stop => true
  | .pbread => true
  | .pbcur => true
  | .edge _ => true
  | .complete => true

/-- What the output device owes at a START: it does not refuse a configuration while its loop runs (U5), after which the
spec does not know what plays. -/
def deviceDuty (s : State) : Instr → Bool
  | .start _ _ _ => s.cfgOk || !s.ho.playing
  | .nop => true
  | .poll => true
  | .pdread => true
  | .ready => true
  | .enqueue _ _ => true
  | .stop => true
  | .swap => true
  | .pbread => true
  | .pbcur => true
  | .edge _ => true
  | .complete => true

/-- An operation accepted with host and device keeping their duties. -/
def safeOp (s : State) (i : Instr) : Bool := hostDuty s i && deviceDuty s i

/-- The platform's duty on the length of a tick: a real low period stays below `2^TW` ticks (R184). `real` and `TICK` are in
the same unit. -/
def lowPeriodFits (p : Params) (real : Nat) : Bool := real < 2 ^ 32 * p.tick

/-- The real-time duty of R184 and R185 on two stamps taken at the real tick counts `earlier` and `later`. -/
def elapsedFits (earlier later : Nat) : Bool := earlier ≤ later && later - earlier < 2 ^ 32

end Sys2Proof.Machine
end

