-- ==== Sys2Proof/Certificates/Slice0/Obligations.lean ====
section
/-! DEFINITION. The statements for the provers. An equation `t = { s with … }` says the whole frame: every field that
does not stand after `with` is as before (the block has no memory, so there is no byte of memory to speak of). Numbers
are compared as naturals, so that the statements do not lean on the model's own arithmetic. -/

open Sys2Proof Sys2Proof.Machine

-- ==== Encoding ====

/-- Decoding an encoded operation gives it back, every operand at every value (R71, R72, R75, R77, R78). Every value of
`Instr` is well formed. -/
def Obligations.DecodeOfEncodeIsTheOperation : Prop :=
  ∀ i : Instr, decode (encode i) = .op i

/-- The operation map (R78): a host command selects the row by `hc[31:0]` alone, and takes its operands from the fields
of R72; `ew` and `cw` present an operation when their strobe is 1. -/
def Obligations.PortsDecodeByTheOperationMap : Prop :=
  (∀ hc : Word128,
    let low := hc.toNat % 2 ^ 32
    let addr := BitVec.ofNat 32 (hc.toNat / 2 ^ 32)
    let n := BitVec.ofNat 32 (hc.toNat / 2 ^ 64)
    let rate := BitVec.ofNat 32 (hc.toNat / 2 ^ 96)
    (low = 0x0 → decode (.h hc) = .op .nop) ∧
    (low = 0x1 → decode (.h hc) = .op .poll) ∧
    (low = 0x2 → decode (.h hc) = .op .pdread) ∧
    (low = 0x4 → decode (.h hc) = .op (.start rate addr n)) ∧
    (low = 0x5 → decode (.h hc) = .op .ready) ∧
    (low = 0x6 → decode (.h hc) = .op (.enqueue addr n)) ∧
    (low = 0x7 → decode (.h hc) = .op .stop) ∧
    (low = 0x8 → decode (.h hc) = .op .swap) ∧
    (low = 0x9 → decode (.h hc) = .op .pbread) ∧
    (low = 0xA → decode (.h hc) = .op .pbcur) ∧
    (low ∉ [0x0, 0x1, 0x2, 0x4, 0x5, 0x6, 0x7, 0x8, 0x9, 0xA] → ∃ why, decode (.h hc) = .illegal why)) ∧
  (∀ ew : EdgeWord, decode (.e ew) = if ew.toNat / 2 = 1 then .op (.edge (ew.toNat % 2 = 1)) else .nothing) ∧
  (∀ cw : CompletionWord, decode (.c cw) = if cw.toNat = 1 then .op .complete else .nothing)

/-- The port fixes what an agent can do (R164): each port decodes to the operations of its agent only. -/
def Obligations.PortFixesWhoIssuesWhat : Prop :=
  (∀ (hc : Word128) (i : Instr), decode (.h hc) = .op i → i.agent = .host) ∧
  (∀ (ew : EdgeWord) (i : Instr), decode (.e ew) = .op i → i.agent = .dialEdge) ∧
  (∀ (cw : CompletionWord) (i : Instr), decode (.c cw) = .op i → i.agent = .completion)

/-- Words written out in 95_test_vectors.md decode to the operations they stand for (V29, V61, S3, S4, V71, R101). -/
def Obligations.WrittenWordsDecode : Prop :=
  decode (.h 0x0000000900000007DEADBEEF00000001) = .op .poll ∧
  decode (.h 0xFFFFFFFFFFFFFFFFFFFFFFFF00000000) = .op .nop ∧
  decode (.h 0x0000AC44000003EA2000102C00000004) = .op (.start 44100 0x2000102C 1002) ∧
  decode (.h 0x00000000000004002000180000000006) = .op (.enqueue 0x20001800 1024) ∧
  decode (.e 0b10) = .op (.edge false) ∧ decode (.e 0b11) = .op (.edge true) ∧ decode (.c 1) = .op .complete ∧
  decode (.h 0x00000000000000000000000000000011) = .illegal .reservedBits

/-- The host response word (R73): `code` in bits 3 to 0, `v` in bit 4, 0 in bits 31 to 5, `D0`, `D1`, `D2` above; and it
is returned once for every host command, an illegal one too. -/
def Obligations.ResponseWordAndOnePerHostCommand : Prop :=
  (∀ r : Response, r.word.toNat =
    (match r.code with | .ok => 0 | .stopped => 1 | .errResource => 2 | .errIllegal => 3)
      + 16 * (if r.v then 1 else 0) + 2 ^ 32 * r.d0.toNat + 2 ^ 64 * r.d1.toNat + 2 ^ 96 * r.d2.toNat) ∧
  (∀ (i : Instr) (s t : State), exec i s = .next t →
    if i.agent = .host then ∃ r, t.responses = s.responses ++ [r] else t.responses = s.responses) ∧
  (∀ (s : State) (p : Instant) (rest : List Instant) (hc : Word128) (why : IllegalCommand),
    s.inputs = p :: rest → p.rst = false → p.ew.getLsbD 1 = false → p.cw = 0 → p.hc = some hc →
    decode (.h hc) = .illegal why → ∃ t r, step s = .next t ∧ t.responses = s.responses ++ [r])

/-- The output command word (R74): `kind` in bits 1 to 0, 0 in bits 31 to 2, then `src`, `len` and `rate`, each 0 where the
command has none. -/
def Obligations.OutputCommandWordFields : Prop :=
  ∀ (rate : Rate) (src : Addr) (len : SampleCount),
    (OutCmd.configureLoop rate src len).word.toNat
      = 1 + 2 ^ 32 * src.toNat + 2 ^ 64 * len.toNat + 2 ^ 96 * rate.toNat ∧
    (OutCmd.retarget src len).word.toNat = 2 + 2 ^ 32 * src.toNat + 2 ^ 64 * len.toNat ∧
    OutCmd.abort.word.toNat = 3

/-- The two status images (R36), and `ready` as R35 defines it. -/
def Obligations.StatusImagesShowTheRegisters : Prop :=
  (∀ p : PulseState, p.status.toNat = p.count.toNat + 256 * (if p.lastLevel then 1 else 0)) ∧
  (∀ h : Handoff, h.status.toNat =
    (if h.playing then 1 else 0) + 2 * (if h.stop then 1 else 0) + 4 * (if h.mbFull then 1 else 0)
      + 8 * (if h.playing ∧ ¬h.stop ∧ ¬h.mbFull then 1 else 0) + 16 * (if h.fillSel then 1 else 0))

-- ==== Reset and the step ====

/-- The reset state (R40): the twelve registers, `ready = 0`, `PD_STAT = 0x00000100`, `HO_STAT = 0`. -/
def Obligations.ResetLeavesTheIdleBlock : Prop :=
  State.reset.pd.lastLevel = true ∧ State.reset.pd.fallTs = 0 ∧ State.reset.pd.count = 0 ∧
  State.reset.pd.lastPulseTs = 0 ∧ State.reset.ho.mbFull = false ∧ State.reset.ho.mbAddr = 0 ∧
  State.reset.ho.mbCount = 0 ∧ State.reset.ho.playing = false ∧ State.reset.ho.stop = false ∧
  State.reset.ho.curAddr = 0 ∧ State.reset.ho.curCount = 0 ∧ State.reset.ho.fillSel = false ∧
  State.reset.ho.ready = false ∧ State.reset.pd.status = 0x00000100 ∧ State.reset.ho.status = 0x00000000

/-- With `rst` asserted a step puts all twelve registers at the values of R40 and accepts no operation of what is presented
with it: nothing is answered and nothing is emitted (R41). No operation resets the block: each leaves the handoff registers,
or all of PulseState but `count`, as they are. -/
def Obligations.ResetInputRestoresTheRegisters : Prop :=
  (∀ (s : State) (p : Instant) (rest : List Instant), s.inputs = p :: rest → p.rst = true →
    ∃ t, step s = .next t ∧ t.pd = ⟨true, 0, 0, 0⟩ ∧ t.ho = ⟨false, 0, 0, false, false, 0, 0, false⟩ ∧
      t.responses = s.responses ∧ t.portO = s.portO ∧ t.params = s.params) ∧
  (∀ (i : Instr) (s t : State), exec i s = .next t → t.ho = s.ho ∨ t.pd = { s.pd with count := t.pd.count })

/-- A step runs the decoded operation: the first word an instant presents, in the order EDGE, COMPLETE, host command,
is decoded and executed with `now` and `cfg_ok` of that instant sampled; what the instant presents besides stays to come. -/
def Obligations.StepRunsTheDecodedOperation : Prop :=
  ∀ (s : State) (p : Instant) (rest : List Instant) (i : Instr), s.inputs = p :: rest → p.rst = false →
    (decode (.e p.ew) = .op i →
      step s = exec i { s with now := p.now, cfgOk := p.cfgOk, inputs :=
        if p.cw = 0 ∧ p.hc = none then rest else { p with ew := 0 } :: rest }) ∧
    (decode (.e p.ew) = .nothing → decode (.c p.cw) = .op i →
      step s = exec i { s with now := p.now, cfgOk := p.cfgOk, inputs :=
        if p.hc = none then rest else { p with cw := 0 } :: rest }) ∧
    (∀ hc, decode (.e p.ew) = .nothing → decode (.c p.cw) = .nothing → p.hc = some hc → decode (.h hc) = .op i →
      step s = exec i { s with now := p.now, cfgOk := p.cfgOk, inputs := rest })

/-- An illegal host command (R79, R144): a reserved `op`, or `hc[31:4] != 0` with any `op`. It changes no register, emits
nothing and answers ERR_ILLEGAL with every other field 0. -/
def Obligations.IllegalCommandAnswersErrIllegal : Prop :=
  ∀ (s : State) (p : Instant) (rest : List Instant) (hc : Word128),
    s.inputs = p :: rest → p.rst = false → p.ew.getLsbD 1 = false → p.cw = 0 → p.hc = some hc →
    (hc.toNat % 16 ∈ [0x3, 0xB, 0xC, 0xD, 0xE, 0xF] ∨ hc.toNat % 2 ^ 32 / 16 ≠ 0) →
    ∃ t, step s = .next t ∧ t.pd = s.pd ∧ t.ho = s.ho ∧ t.params = s.params ∧ t.portO = s.portO ∧
      t.responses = s.responses ++ [⟨.errIllegal, false, 0, 0, 0⟩]

/-- Operations presented at the same instant (R62): EDGE, then COMPLETE, then the host operation, all with the same `t`,
and likewise any two of them; and the order of EDGE and COMPLETE between themselves cannot be observed. -/
def Obligations.SameInstantOperationsRunInTheFixedOrder : Prop :=
  (∀ (s : State) (p : Instant) (rest : List Instant) (lvl : Bool) (hc : Word128) (i : Instr),
    s.inputs = p :: rest → p.rst = false → decode (.h hc) = .op i →
    let sampled : State := { s with now := p.now, cfgOk := p.cfgOk, inputs := rest }
    let ev (op : Instr) : Event := ⟨op, p.now, p.cfgOk⟩
    (decode (.e p.ew) = .op (.edge lvl) → decode (.c p.cw) = .op .complete → p.hc = some hc →
      core.run 3 s = execAll [ev (.edge lvl), ev .complete, ev i] sampled) ∧
    (decode (.e p.ew) = .op (.edge lvl) → decode (.c p.cw) = .op .complete → p.hc = none →
      core.run 2 s = execAll [ev (.edge lvl), ev .complete] sampled) ∧
    (decode (.e p.ew) = .op (.edge lvl) → decode (.c p.cw) = .nothing → p.hc = some hc →
      core.run 2 s = execAll [ev (.edge lvl), ev i] sampled) ∧
    (decode (.e p.ew) = .nothing → decode (.c p.cw) = .op .complete → p.hc = some hc →
      core.run 2 s = execAll [ev .complete, ev i] sampled)) ∧
  (∀ (s : State) (lvl : Bool) (t : Tick) (cfgOk : Bool),
    execAll [⟨.edge lvl, t, cfgOk⟩, ⟨.complete, t, cfgOk⟩] s = execAll [⟨.complete, t, cfgOk⟩, ⟨.edge lvl, t, cfgOk⟩] s)

/-- How the model's steps use up what is presented (the model's conventions, log 1, log 6, log 8): with no input left a
step changes nothing at all; an instant that presents nothing only has its pins sampled; an instant with `rst` asserted,
or with nothing but an illegal host command, is used up by its step. -/
def Obligations.InputsAreUsedUpAsTheModelFixes : Prop :=
  (∀ s : State, s.inputs = [] → step s = .next s) ∧
  (∀ (s : State) (p : Instant) (rest : List Instant), s.inputs = p :: rest →
    (p.rst = false → decode (.e p.ew) = .nothing → decode (.c p.cw) = .nothing → p.hc = none →
      step s = .next { s with now := p.now, cfgOk := p.cfgOk, inputs := rest }) ∧
    (p.rst = true → ∃ t, step s = .next t ∧ t.inputs = rest) ∧
    (∀ hc why, p.rst = false → decode (.e p.ew) = .nothing → decode (.c p.cw) = .nothing → p.hc = some hc →
      decode (.h hc) = .illegal why → ∃ t, step s = .next t ∧ t.inputs = rest))

/-- A word of the opcode table placed by `withFetchWord` is what the next step executes, from any state (the model's
convention, log 7). -/
def Obligations.PlacedTableWordRunsNext : Prop :=
  ∀ (s : State) (nbits w : Nat) (i : Instr), decodeTableWord nbits w = some i → step (s.withFetchWord nbits w) = exec i s

/-- The line order of a program is its acceptance order (R60, R82): as many steps as lines execute the lines' operations
one after another, each with its own `@t` and `?cfg_ok`, and leave the inputs behind them to come. -/
def Obligations.LinesExecuteInTheirOrder : Prop :=
  ∀ (ls : List Line) (s : State),
    core.run ls.length (s.loadLines ls) = execAll (ls.map (eventOf s.now s.cfgOk)) s

/-- In every state and for every operation the step is defined (R197). Three parts of this are the model's choice: that a step
with nothing presented answers a next state (log 6, DESIGN CHOICE), that no fault exists (log 9, DEDUCED), and that START and
ENQUEUE run on the operands and in the states where 93_implementation_defined.md proposes or allows a refusal or a stop, U5's
after ERR_RESOURCE while Playing among them (log 10, DEDUCED). -/
def Obligations.EveryStepIsDefined : Prop :=
  (∀ (i : Instr) (s : State), ∃ t, exec i s = .next t) ∧ (∀ s : State, ∃ t, step s = .next t)

/-- What a step may add to what has left the block (R9, R61): at most one response and at most two output commands, each
after all earlier ones; nothing is taken back. -/
def Obligations.OutputsAreOnlyAppended : Prop :=
  ∀ s t : State, step s = .next t →
    ∃ rs cs, t.responses = s.responses ++ rs ∧ rs.length ≤ 1 ∧ t.portO = s.portO ++ cs ∧ cs.length ≤ 2

/-- The parameters never change (R182(1)). -/
def Obligations.ParametersNeverChange : Prop :=
  ∀ s t : State, step s = .next t → t.params = s.params

-- ==== Invariants ====

/-- `not (playing and stop)` (R39(a)) is kept by every step, from every state in which it holds. -/
def Obligations.StepKeepsPlayingAndStopExclusive : Prop :=
  ∀ s t : State, s.ho.Exclusive → step s = .next t → t.ho.Exclusive

/-- `not (playing and stop)` (R39(a)) holds after reset. -/
def Obligations.ResetIsNotPlayingAndStopped : Prop := State.reset.ho.Exclusive

/-- The transition table of the engine (R127), for every state with R39(a): the engine state after, whether the mailbox
is full after, and the kinds of the commands emitted are those of the operation's row; and R39(a) holds after it, so that
no operation leads to the combination the table leaves out. -/
def Obligations.EngineFollowsTheTransitionTable : Prop :=
  ∀ (i : Instr) (s : State), s.ho.Exclusive → ∃ t cs, exec i s = .next t ∧ t.portO = s.portO ++ cs ∧
    (t.ho.engine, t.ho.mbFull, cs.map OutCmd.kind) = transition s.ho.engine s.ho.mbFull s.cfgOk i ∧ t.ho.Exclusive

-- ==== The result of each operation ====

/-- EDGE (R101, with the arithmetic of R103 to R105): in every state, with no response and no output. The fall and the rise
are told apart by the level last observed. -/
def Obligations.EdgeClassifiesAndCounts : Prop :=
  (∀ lvl : Bool, decode (.e (if lvl then 0b11 else 0b10)) = .op (.edge lvl)) ∧
  (∀ (lvl : Bool) (s : State), ∃ t, exec (.edge lvl) s = .next t ∧ t = { s with pd := t.pd } ∧
    t.pd.lastLevel = lvl ∧
    (s.pd.lastLevel = true → lvl = false →
      t.pd.fallTs = s.now ∧ t.pd.count = s.pd.count ∧ t.pd.lastPulseTs = s.pd.lastPulseTs) ∧
    (s.pd.lastLevel = false → lvl = true →
      let dur := (s.now.toNat + 2 ^ 32 - s.pd.fallTs.toNat) % 2 ^ 32
      t.pd.fallTs = s.pd.fallTs ∧
      (s.params.pwMin.toNat ≤ dur ∧ dur ≤ s.params.pwMax.toNat →
        t.pd.count.toNat = min (s.pd.count.toNat + 1) 255 ∧ t.pd.lastPulseTs = s.now) ∧
      (dur < s.params.pwMin.toNat ∨ s.params.pwMax.toNat < dur →
        t.pd.count = s.pd.count ∧ t.pd.lastPulseTs = s.pd.lastPulseTs)) ∧
    (lvl = s.pd.lastLevel → t.pd = s.pd))

/-- POLL (R102): the raw count as a digit, and the counter cleared, when it is not 0 and more than `IDT` ticks have passed;
otherwise "no digit yet" and no register changes. -/
def Obligations.PollEmitsTheCountAfterThePause : Prop :=
  (∀ r n a : Lane, decode (.h (lanes r n a 0x1)) = .op .poll) ∧
  (∀ s : State,
    let quiet := (s.now.toNat + 2 ^ 32 - s.pd.lastPulseTs.toNat) % 2 ^ 32
    (s.pd.count.toNat ≠ 0 ∧ s.params.idt.toNat < quiet →
      exec .poll s = .next { s with
        pd := ⟨s.pd.lastLevel, s.pd.fallTs, 0, s.pd.lastPulseTs⟩
        responses := s.responses ++ [⟨.ok, true, BitVec.ofNat 32 s.pd.count.toNat, 0, 0⟩] }) ∧
    (s.pd.count.toNat = 0 ∨ quiet ≤ s.params.idt.toNat →
      exec .poll s = .next { s with responses := s.responses ++ [⟨.ok, false, 0, 0, 0⟩] }))

/-- START (R121): CONFIGURE_LOOP in either case; with `cfg_ok = 1` Playing, not stopping, the mailbox empty with its pair
kept, the shadow at the operands; with `cfg_ok = 0` ERR_RESOURCE and no register changed. -/
def Obligations.StartBeginsPlayingOrFailsWhole : Prop :=
  (∀ (rate : Rate) (addr : Addr) (n : SampleCount),
    decode (.h (lanes rate n addr 0x4)) = .op (.start rate addr n)) ∧
  (∀ (rate : Rate) (addr : Addr) (n : SampleCount) (s : State),
    (s.cfgOk = true → exec (.start rate addr n) s = .next { s with
      ho := ⟨false, s.ho.mbAddr, s.ho.mbCount, true, false, addr, n, s.ho.fillSel⟩
      portO := s.portO ++ [.configureLoop rate addr n]
      responses := s.responses ++ [⟨.ok, false, 0, 0, 0⟩] }) ∧
    (s.cfgOk = false → exec (.start rate addr n) s = .next { s with
      portO := s.portO ++ [.configureLoop rate addr n]
      responses := s.responses ++ [⟨.errResource, false, 0, 0, 0⟩] }))

/-- READY (R122): the conjunction of its three clauses, and nothing changed. -/
def Obligations.ReadyAnswersTheThreeClauses : Prop :=
  (∀ r n a : Lane, decode (.h (lanes r n a 0x5)) = .op .ready) ∧
  (∀ s : State, ∃ v : Bool, (v = true ↔ s.ho.playing = true ∧ s.ho.stop = false ∧ s.ho.mbFull = false) ∧
    exec .ready s = .next { s with responses := s.responses ++ [⟨.ok, v, 0, 0, 0⟩] })

/-- ENQUEUE (R123): installs the pair, overwriting, whatever `playing` and `mb_full` are; with `stop = 1` a no-op answered
STOPPED. -/
def Obligations.EnqueueInstallsUnlessStopped : Prop :=
  (∀ (r : Lane) (addr : Addr) (n : SampleCount), decode (.h (lanes r n addr 0x6)) = .op (.enqueue addr n)) ∧
  (∀ (addr : Addr) (n : SampleCount) (s : State),
    (s.ho.stop = false → exec (.enqueue addr n) s = .next { s with
      ho := ⟨true, addr, n, s.ho.playing, false, s.ho.curAddr, s.ho.curCount, s.ho.fillSel⟩
      responses := s.responses ++ [⟨.ok, false, 0, 0, 0⟩] }) ∧
    (s.ho.stop = true → exec (.enqueue addr n) s = .next { s with
      responses := s.responses ++ [⟨.stopped, false, 0, 0, 0⟩] }))

/-- STOP (R124): its three effects in every state; the mailbox, the shadow and the role bit are untouched. -/
def Obligations.StopAbortsInEveryState : Prop :=
  (∀ r n a : Lane, decode (.h (lanes r n a 0x7)) = .op .stop) ∧
  (∀ s : State, exec .stop s = .next { s with
    ho := ⟨s.ho.mbFull, s.ho.mbAddr, s.ho.mbCount, false, true, s.ho.curAddr, s.ho.curCount, s.ho.fillSel⟩
    portO := s.portO ++ [.abort]
    responses := s.responses ++ [⟨.ok, false, 0, 0, 0⟩] })

/-- COMPLETE (R125): takes and clears the mailbox in every state; while Playing it retargets to the taken pair, or drains to
Idle with ABORT; while Idle nothing more. No response. -/
def Obligations.CompleteTakesTheMailbox : Prop :=
  decode (.c 1) = .op .complete ∧
  (∀ s : State,
    let h := s.ho
    (h.playing = true → h.mbFull = true → exec .complete s = .next { s with
      ho := ⟨false, h.mbAddr, h.mbCount, true, h.stop, h.mbAddr, h.mbCount, h.fillSel⟩
      portO := s.portO ++ [.retarget h.mbAddr h.mbCount] }) ∧
    (h.playing = true → h.mbFull = false → exec .complete s = .next { s with
      ho := ⟨false, h.mbAddr, h.mbCount, false, h.stop, h.curAddr, h.curCount, h.fillSel⟩
      portO := s.portO ++ [.abort] }) ∧
    (h.playing = false → exec .complete s = .next { s with
      ho := ⟨false, h.mbAddr, h.mbCount, false, h.stop, h.curAddr, h.curCount, h.fillSel⟩ }))

/-- SWAP (R126): complements `fill_sel`, answers its new value, and changes nothing else. -/
def Obligations.SwapComplementsTheRoleBit : Prop :=
  (∀ r n a : Lane, decode (.h (lanes r n a 0x8)) = .op .swap) ∧
  (∀ s : State, ∃ t, exec .swap s = .next t ∧ t = { s with ho := t.ho, responses := t.responses } ∧
    t.ho = { s.ho with fillSel := t.ho.fillSel } ∧ t.ho.fillSel ≠ s.ho.fillSel ∧
    t.responses = s.responses ++ [⟨.ok, t.ho.fillSel, 0, 0, 0⟩])

/-- NOP (R140): the empty answer, and nothing changed. The all-zero word is a NOP. -/
def Obligations.NopOnlyAnswers : Prop :=
  (∀ r n a : Lane, decode (.h (lanes r n a 0x0)) = .op .nop) ∧
  (∀ s : State, exec .nop s = .next { s with responses := s.responses ++ [⟨.ok, false, 0, 0, 0⟩] })

/-- PDREAD (R141): `PD_STAT`, `fall_ts` and `last_pulse_ts`, and no register changed. -/
def Obligations.PdreadShowsPulseState : Prop :=
  (∀ r n a : Lane, decode (.h (lanes r n a 0x2)) = .op .pdread) ∧
  (∀ s : State, exec .pdread s = .next { s with responses := s.responses ++
    [⟨.ok, false, BitVec.ofNat 32 (s.pd.count.toNat + 256 * (if s.pd.lastLevel then 1 else 0)), s.pd.fallTs,
      s.pd.lastPulseTs⟩] })

/-- PBREAD (R142): `HO_STAT` and the mailbox pair, and no register changed. -/
def Obligations.PbreadShowsFlagsAndMailbox : Prop :=
  (∀ r n a : Lane, decode (.h (lanes r n a 0x9)) = .op .pbread) ∧
  (∀ s : State, exec .pbread s = .next { s with responses := s.responses ++
    [⟨.ok, false, BitVec.ofNat 32 ((if s.ho.playing then 1 else 0) + 2 * (if s.ho.stop then 1 else 0)
        + 4 * (if s.ho.mbFull then 1 else 0)
        + 8 * (if s.ho.playing ∧ ¬s.ho.stop ∧ ¬s.ho.mbFull then 1 else 0) + 16 * (if s.ho.fillSel then 1 else 0)),
      s.ho.mbAddr, s.ho.mbCount⟩] })

/-- PBCUR (R143): `playing` and the shadow, and no register changed. -/
def Obligations.PbcurShowsTheShadow : Prop :=
  (∀ r n a : Lane, decode (.h (lanes r n a 0xA)) = .op .pbcur) ∧
  (∀ s : State, exec .pbcur s = .next { s with responses := s.responses ++
    [⟨.ok, s.ho.playing, s.ho.curAddr, s.ho.curCount, 0⟩] })

-- ==== Frames and whole-machine rules ====

/-- The frames of the two sub-blocks (R100, R120): an operation of sub-block PD leaves the handoff registers and port O
alone, every other operation leaves PulseState alone, and none changes an argument of the step or what is still to be
presented. -/
def Obligations.SubBlocksLeaveEachOtherAlone : Prop :=
  ∀ (i : Instr) (s t : State), exec i s = .next t →
    (isPdOp i = true → t.ho = s.ho ∧ t.portO = s.portO) ∧ (isPdOp i = false → t.pd = s.pd) ∧
    t.params = s.params ∧ t.now = s.now ∧ t.cfgOk = s.cfgOk ∧ t.inputs = s.inputs

/-- The operations without side effect (R59): NOP, READY, PDREAD, PBREAD and PBCUR change nothing but the responses. -/
def Obligations.ReadsChangeNoRegister : Prop :=
  ∀ (i : Instr) (s t : State), i ∈ [.nop, .ready, .pdread, .pbread, .pbcur] → exec i s = .next t →
    t = { s with responses := t.responses }

/-- Idempotency (R59): START, STOP, ENQUEUE and an EDGE of the same level, repeated, leave the registers as the first
left them; two SWAPs restore `fill_sel`; a POLL after a POLL that returned a digit finds none, whenever it comes. -/
def Obligations.RepeatedOperationsAreIdempotent : Prop :=
  (∀ (i : Instr) (s t u : State) (e : Event), exec i s = .next t → e.op = i → execEvent e t = .next u →
    (∀ rate addr n, i = .start rate addr n → e.cfgOk = s.cfgOk → u.ho = t.ho) ∧
    (i = .stop → u.ho = t.ho) ∧
    (∀ addr n, i = .enqueue addr n → u.ho = t.ho) ∧
    (∀ lvl, i = .edge lvl → u.pd = t.pd) ∧
    (i = .swap → u.ho = s.ho) ∧
    (i = .poll → t.pd.count ≠ s.pd.count → u.pd = t.pd ∧ u.responses = t.responses ++ [⟨.ok, false, 0, 0, 0⟩]))

/-- Who writes `playing` (R29): it is 1 after an operation exactly if a START succeeded, or it was 1 and the operation is
neither STOP nor a COMPLETE that finds the mailbox empty. -/
def Obligations.PlayingIsWrittenAsRuled : Prop :=
  ∀ (i : Instr) (s t : State), exec i s = .next t →
    (t.ho.playing = true ↔ (s.cfgOk = true ∧ ∃ rate addr n, i = .start rate addr n) ∨
      (s.ho.playing = true ∧ i ≠ .stop ∧ ¬(i = .complete ∧ s.ho.mbFull = false)))

/-- Who writes `stop` (R30): it is 1 after an operation exactly if the operation is STOP, or it was 1 and the operation is
not a START that succeeded. -/
def Obligations.StopIsWrittenAsRuled : Prop :=
  ∀ (i : Instr) (s t : State), exec i s = .next t →
    (t.ho.stop = true ↔ i = .stop ∨ (s.ho.stop = true ∧ ¬(s.cfgOk = true ∧ ∃ rate addr n, i = .start rate addr n)))

/-- How `count` changes (R23, R197): by at most one, upwards, at an EDGE, or to 0 at a POLL whose response is the old
count, or to 0 by reset. -/
def Obligations.CountChangesOnlyAsRuled : Prop :=
  ∀ s t : State, step s = .next t → t.pd.count ≠ s.pd.count →
    (∃ lvl s', s.accept = (.op (.edge lvl), s') ∧ t.pd.count.toNat = s.pd.count.toNat + 1) ∨
    (∃ s', s.accept = (.op .poll, s') ∧ t.pd.count = 0 ∧
      t.responses = s.responses ++ [⟨.ok, true, BitVec.ofNat 32 s.pd.count.toNat, 0, 0⟩]) ∨
    (∃ s', s.accept = (.reset, s') ∧ t.pd = State.reset.pd)

/-- Errors (R150 to R154): each code comes from its one cause, and an operation answered with an error has changed no
register. ERR_ILLEGAL comes from no operation. -/
def Obligations.ErrorsComeFromTheirCauseAndChangeNothing : Prop :=
  ∀ (i : Instr) (s t : State) (r : Response), exec i s = .next t → t.responses = s.responses ++ [r] →
    (r.code = .stopped ↔ s.ho.stop = true ∧ ∃ addr n, i = .enqueue addr n) ∧
    (r.code = .errResource ↔ s.cfgOk = false ∧ ∃ rate addr n, i = .start rate addr n) ∧
    r.code ≠ .errIllegal ∧
    (r.code ≠ .ok → t.pd = s.pd ∧ t.ho = s.ho ∧ r.v = false ∧ r.d0 = 0 ∧ r.d1 = 0 ∧ r.d2 = 0)

-- ==== Noninterference ====

/-- Interleaving (R100, R120; the property 95_test_vectors.md P6 asks to be proved once): whatever operations of the other
sub-block are interleaved, PulseState ends as if only the PD operations had been accepted, and the handoff registers and
port O as if only the others had. -/
def Obligations.InterleavedSubBlocksDoNotInterfere : Prop :=
  ∀ (es : List Event) (s : State), ∃ t u v, execAll es s = .next t ∧
    execAll (es.filter (fun e => isPdOp e.op)) s = .next u ∧
    execAll (es.filter (fun e => !isPdOp e.op)) s = .next v ∧
    t.pd = u.pd ∧ t.ho = v.ho ∧ t.portO = v.portO

/-- The two time stamps are not read while they mean nothing (R22, R24, R25): with the line high no operation but PDREAD
reads `fall_ts`, and with `count = 0` none but PDREAD reads `last_pulse_ts`; each is written before it is next read. -/
def Obligations.StaleTimeStampsAreNotRead : Prop :=
  (∀ (i : Instr) (s t t' : State) (x : Tick), s.pd.lastLevel = true → i ≠ .pdread → exec i s = .next t →
    exec i { s with pd := { s.pd with fallTs := x } } = .next t' →
    t' = { t with pd := { t.pd with fallTs := t'.pd.fallTs } } ∧ (t.pd.lastLevel = true ∨ t'.pd.fallTs = t.pd.fallTs)) ∧
  (∀ (i : Instr) (s t t' : State) (x : Tick), s.pd.count = 0 → i ≠ .pdread → exec i s = .next t →
    exec i { s with pd := { s.pd with lastPulseTs := x } } = .next t' →
    t' = { t with pd := { t.pd with lastPulseTs := t'.pd.lastPulseTs } } ∧
      (t.pd.count = 0 ∨ t'.pd.lastPulseTs = t.pd.lastPulseTs))

/-- The pair of an empty mailbox is read by PBREAD only (R27), the shadow by PBCUR only (R32), and `fill_sel` by SWAP and
PBREAD only (R33). -/
def Obligations.StaleHandoffRegistersAreNotRead : Prop :=
  (∀ (i : Instr) (s t t' : State) (a : Addr) (n : SampleCount), s.ho.mbFull = false → i ≠ .pbread → exec i s = .next t →
    exec i { s with ho := { s.ho with mbAddr := a, mbCount := n } } = .next t' →
    t' = { t with ho := { t.ho with mbAddr := t'.ho.mbAddr, mbCount := t'.ho.mbCount } } ∧
      (t.ho.mbFull = false ∨ (t'.ho.mbAddr = t.ho.mbAddr ∧ t'.ho.mbCount = t.ho.mbCount))) ∧
  (∀ (i : Instr) (s t t' : State) (a : Addr) (n : SampleCount), i ≠ .pbcur → exec i s = .next t →
    exec i { s with ho := { s.ho with curAddr := a, curCount := n } } = .next t' →
    t' = { t with ho := { t.ho with curAddr := t'.ho.curAddr, curCount := t'.ho.curCount } }) ∧
  (∀ (i : Instr) (s t t' : State) (b : Bool), i ≠ .swap → i ≠ .pbread → exec i s = .next t →
    exec i { s with ho := { s.ho with fillSel := b } } = .next t' →
    t = { t with ho := { t.ho with fillSel := s.ho.fillSel } } ∧ t' = { t with ho := { t.ho with fillSel := b } })

-- ==== Properties the document states ====

/-- Time differences (R103): of two samples of one free-running counter, the later one minus the earlier is the elapsed
time modulo 2^32, and it is the elapsed time exactly when that is below 2^32; and `0 - 1` is 4294967295. -/
def Obligations.TimeDifferenceIsElapsedTime : Prop :=
  (∀ a b : Tick, (elapsed a b).toNat = ((a.toNat : Int) - b.toNat) % 2 ^ 32) ∧
  (∀ later earlier : Nat, earlier ≤ later →
    let difference := (elapsed (BitVec.ofNat 32 later) (BitVec.ofNat 32 earlier)).toNat
    difference = (later - earlier) % 2 ^ 32 ∧ (difference = later - earlier ↔ later - earlier < 2 ^ 32)) ∧
  elapsed 0 1 = 4294967295

/-- What a sequence of notifications does to the counter (R101, R105, R107, R110): `count` grows by the number of low
periods whose duration lies in the window, saturating at 255, whatever noise stands between them; with no such period
`last_pulse_ts` is unchanged too. -/
def Obligations.CountIsTheNumberOfValidLowPeriods : Prop :=
  ∀ (es : List (Bool × Tick)) (s : State),
    let durs := lowDurations s.pd.lastLevel s.pd.fallTs es
    let valid := durs.filter (fun d => s.params.pwMin.toNat ≤ d.toNat ∧ d.toNat ≤ s.params.pwMax.toNat)
    ∃ t, execAll (es.map (fun e => ⟨.edge e.1, e.2, s.cfgOk⟩)) s = .next t ∧
      t.pd.count.toNat = min (s.pd.count.toNat + valid.length) 255 ∧
      (valid = [] → t.pd.lastPulseTs = s.pd.lastPulseTs) ∧
      t.ho = s.ho ∧ t.responses = s.responses ∧ t.portO = s.portO

/-- N valid pulses, then a pause, are one digit of value N (R108), here as the pseudo-operations PULSE and DIGIT? of R83
run by steps: before the pause nothing is answered; the first POLL more than `IDT` ticks after the last rise returns N
and clears the counter; the next POLL, whenever it comes, returns no digit. -/
def Obligations.PulsesThenPauseGiveOneDigit : Prop :=
  ∀ (ps : List (Tick × Tick)) (last : Tick × Tick) (s : State) (tm later : Tick),
    s.pd.count = 0 → s.pd.lastLevel = true → ps.length < 255 →
    (∀ p ∈ ps ++ [last], s.params.pwMin ≤ p.2 - p.1 ∧ p.2 - p.1 ≤ s.params.pwMax) →
    s.params.idt < tm - last.2 →
    ∃ t u w, core.run (2 * (ps.length + 1))
        (s.loadLines ((ps ++ [last]).flatMap (fun p => (PseudoOp.pulse p.1 p.2).expand))) = .next t ∧
      t.pd.count.toNat = ps.length + 1 ∧ t.pd.lastPulseTs = last.2 ∧ t.pd.lastLevel = true ∧ t.ho = s.ho ∧
      t.responses = s.responses ∧ t.portO = s.portO ∧ t.inputs = s.inputs ∧ t.params = s.params ∧
      core.run 1 (t.loadLines (PseudoOp.digit tm).expand) = .next u ∧
      u.responses = s.responses ++ [⟨.ok, true, BitVec.ofNat 32 (ps.length + 1), 0, 0⟩] ∧ u.pd.count = 0 ∧
      core.run 1 (u.loadLines (PseudoOp.digit later).expand) = .next w ∧
      w.responses = u.responses ++ [⟨.ok, false, 0, 0, 0⟩]

/-- With `PW_MIN > PW_MAX` no pulse is ever counted (R6). -/
def Obligations.EmptyWindowCountsNothing : Prop :=
  ∀ (i : Instr) (s t : State), s.params.pwMax < s.params.pwMin → exec i s = .next t →
    t.pd.lastPulseTs = s.pd.lastPulseTs ∧ (t.pd.count = s.pd.count ∨ t.pd.count = 0)

/-- Overwrite (R129, R197): of any ENQUEUEs without a COMPLETE, START or STOP between, only the most recent one's pair is
delivered, whatever else is accepted before and after it; the COMPLETE after that, if nothing was enqueued meanwhile,
drains. -/
def Obligations.OnlyTheLastEnqueueIsDelivered : Prop :=
  ∀ (before after : List Event) (last c d : Event) (addr : Addr) (n : SampleCount) (s : State),
    s.ho.playing = true → s.ho.stop = false → last.op = .enqueue addr n → c.op = .complete → d.op = .complete →
    (∀ e ∈ before ++ after, e.op ≠ .complete ∧ e.op ≠ .stop ∧ ∀ r a m, e.op ≠ .start r a m) →
    (∀ e ∈ after, ∀ a m, e.op ≠ .enqueue a m) →
    ∃ t u, execAll (before ++ [last] ++ after ++ [c]) s = .next t ∧ t.portO = s.portO ++ [.retarget addr n] ∧
      t.ho.playing = true ∧ t.ho.mbFull = false ∧ t.ho.curAddr = addr ∧ t.ho.curCount = n ∧
      execEvent d t = .next u ∧ u.portO = t.portO ++ [.abort] ∧ u.ho.playing = false

/-- READY over a run (R130): 1 immediately after a successful START; 0 from an installing ENQUEUE for as long as no COMPLETE
and no START comes; 1 immediately after the COMPLETE that takes a command. -/
def Obligations.ReadyFollowsTheMailbox : Prop :=
  (∀ (s : State) (rate : Rate) (addr : Addr) (n : SampleCount) (r : Event), s.cfgOk = true → r.op = .ready →
    ∃ t u, exec (.start rate addr n) s = .next t ∧ execEvent r t = .next u ∧
      u.responses = t.responses ++ [⟨.ok, true, 0, 0, 0⟩]) ∧
  (∀ (s : State) (es : List Event) (addr : Addr) (n : SampleCount) (r : Event), s.ho.stop = false → r.op = .ready →
    (∀ e ∈ es, e.op ≠ .complete ∧ ∀ q a m, e.op ≠ .start q a m) →
    ∃ t u v, exec (.enqueue addr n) s = .next t ∧ execAll es t = .next u ∧ execEvent r u = .next v ∧
      v.responses = u.responses ++ [⟨.ok, false, 0, 0, 0⟩]) ∧
  (∀ (s : State) (r : Event), s.ho.playing = true → s.ho.stop = false → s.ho.mbFull = true → r.op = .ready →
    ∃ t u, exec .complete s = .next t ∧ execEvent r t = .next u ∧ u.responses = t.responses ++ [⟨.ok, true, 0, 0, 0⟩])

/-- Underrun and stop (R133, R195): from an Idle engine no operations but a START that succeeds make it play, ask for a
retarget, or make READY answer 1. -/
def Obligations.OnlyStartResumesPlayback : Prop :=
  ∀ (es : List Event) (s : State), s.ho.playing = false →
    (∀ e ∈ es, ∀ rate addr n, e.op = .start rate addr n → e.cfgOk = false) →
    ∃ t cs, execAll es s = .next t ∧ t.ho.playing = false ∧ t.portO = s.portO ++ cs ∧
      (∀ a n, OutCmd.retarget a n ∉ cs) ∧ t.ho.ready = false

-- ==== The lending rule ====

/-- What is lent after each operation that changes it (R53; that STOP releases the mailbox too is R124(e), log 11; that a pair
passing `2^AW` lends its bytes unwrapped is the model's choice, log 17; that a START answered ERR_RESOURCE and an ENQUEUE
answered STOPPED lend nothing is the model's choice, log 18): after
a COMPLETE only the taken region, if the engine plays on; after STOP nothing; after an installing ENQUEUE the shadow and
the new region; after a successful START its region only; after any other operation what was lent before. -/
def Obligations.LendingFollowsTheOperations : Prop :=
  ∀ (i : Instr) (s t : State) (b : Nat), exec i s = .next t →
    (i = .complete → t.ho.lends b = (s.ho.playing && s.ho.mbFull && inRegion s.ho.mbAddr s.ho.mbCount b)) ∧
    (i = .stop → t.ho.lends b = false) ∧
    (∀ addr n, i = .enqueue addr n → s.ho.stop = false →
      t.ho.lends b = ((s.ho.playing && inRegion s.ho.curAddr s.ho.curCount b) || inRegion addr n b)) ∧
    (∀ rate addr n, i = .start rate addr n → s.cfgOk = true → t.ho.lends b = inRegion addr n b) ∧
    ((i ≠ .complete ∧ i ≠ .stop ∧ (∀ addr n, i = .enqueue addr n → s.ho.stop = true) ∧
      (∀ rate addr n, i = .start rate addr n → s.cfgOk = false)) → t.ho.lends b = s.ho.lends b)

/-- The SWAP discipline (R194): the Chunk that a SWAP makes the fill-side one while `ready` holds no lent byte, provided
the shadow lies in the Chunk that was the fill-side one; that is so after a START that keeps the host's duty, and again
after the region enqueued next has been taken by a COMPLETE. That a START answered ERR_RESOURCE lends nothing (log 18) and
that the duty asks for `ready` at the operation itself (log 19) are the model's choices. -/
def Obligations.SwapDisciplineFreesTheFillChunk : Prop :=
  ∀ s : State, s.params.wf = true →
    (∀ (rate : Rate) (addr : Addr) (n : SampleCount), s.cfgOk = true → hostDuty s (.start rate addr n) = true →
      ∃ t, exec (.start rate addr n) s = .next t ∧ t.ho.ready = true ∧
        regionInChunk t.params t.ho.fillSel t.ho.curAddr t.ho.curCount = true) ∧
    (hostDuty s .swap = true → regionInChunk s.params s.ho.fillSel s.ho.curAddr s.ho.curCount = true →
      ∃ t, exec .swap s = .next t ∧ (∀ b, inChunk t.params t.ho.fillSel b = true → t.ho.lends b = false) ∧
        ∀ (addr : Addr) (n : SampleCount), hostDuty t (.enqueue addr n) = true →
          ∃ u v, exec (.enqueue addr n) t = .next u ∧ exec .complete u = .next v ∧ v.ho.ready = true ∧
            regionInChunk v.params v.ho.fillSel v.ho.curAddr v.ho.curCount = true)
end

