-- ==== Sys2Proof/Laws/Decode.lean ====
section
/-! SUPPORT. The fields of a word built from lanes, and what the decoder says of such a word. -/

namespace Sys2Proof

variable (l3 l2 l1 l0 : Lane)

/-- The value of a concatenation (R7). -/
theorem toNat_concat {m k : Nat} (x : BitVec m) (y : BitVec k) : (x ++ y).toNat = x.toNat * 2 ^ k + y.toNat := by
  rw [BitVec.toNat_append, ← Nat.shiftLeft_add_eq_or_of_lt y.isLt, Nat.shiftLeft_eq]

theorem lanes_toNat : (lanes l3 l2 l1 l0).toNat =
    l0.toNat + 2 ^ 32 * l1.toNat + 2 ^ 64 * l2.toNat + 2 ^ 96 * l3.toNat := by
  simp only [lanes, toNat_concat]
  omega

@[simp] theorem opField_lanes : opField (lanes l3 l2 l1 l0) = l0.extractLsb' 0 4 := by
  apply BitVec.eq_of_toNat_eq
  simp only [opField, BitVec.extractLsb'_toNat, lanes_toNat, Nat.shiftRight_eq_div_pow]
  omega

@[simp] theorem rsvField_lanes : rsvField (lanes l3 l2 l1 l0) = l0.extractLsb' 4 28 := by
  apply BitVec.eq_of_toNat_eq
  simp only [rsvField, BitVec.extractLsb'_toNat, lanes_toNat, Nat.shiftRight_eq_div_pow]
  omega

@[simp] theorem addrField_lanes : addrField (lanes l3 l2 l1 l0) = l1 := by
  apply BitVec.eq_of_toNat_eq
  simp only [addrField, BitVec.extractLsb'_toNat, lanes_toNat, Nat.shiftRight_eq_div_pow]
  omega

@[simp] theorem countField_lanes : countField (lanes l3 l2 l1 l0) = l2 := by
  apply BitVec.eq_of_toNat_eq
  simp only [countField, BitVec.extractLsb'_toNat, lanes_toNat, Nat.shiftRight_eq_div_pow]
  omega

@[simp] theorem rateField_lanes : rateField (lanes l3 l2 l1 l0) = l3 := by
  apply BitVec.eq_of_toNat_eq
  simp only [rateField, BitVec.extractLsb'_toNat, lanes_toNat, Nat.shiftRight_eq_div_pow]
  omega

/-- Every 128-bit word is its four lanes. -/
theorem lanes_fields (hc : Word128) :
    hc = lanes (rateField hc) (countField hc) (addrField hc) (hc.extractLsb' 0 32) := by
  apply BitVec.eq_of_toNat_eq
  simp only [lanes_toNat, rateField, countField, addrField, BitVec.extractLsb'_toNat, Nat.shiftRight_eq_div_pow]
  omega

/-- Decoding of a host word given by its lanes `R_N_A_ctl` (R85). -/
theorem decodeHost_lanes : decodeHost (lanes l3 l2 l1 l0) =
    if l0.extractLsb' 4 28 ≠ 0#28 then .illegal .reservedBits
    else
      match (l0.extractLsb' 0 4).toNat with
      | 0x0 => .op .nop
      | 0x1 => .op .poll
      | 0x2 => .op .pdread
      | 0x4 => .op (.start l3 l1 l2)
      | 0x5 => .op .ready
      | 0x6 => .op (.enqueue l1 l2)
      | 0x7 => .op .stop
      | 0x8 => .op .swap
      | 0x9 => .op .pbread
      | 0xA => .op .pbcur
      | _ => .illegal .reservedOp := by
  simp only [decodeHost, rsvField_lanes, opField_lanes, addrField_lanes, countField_lanes, rateField_lanes] <;> rfl

/-- An edge word decodes to an operation exactly if its strobe is 1 (R75). -/
theorem decodeEdge_strobe (ew : EdgeWord) : ew.getLsbD 1 = false ↔ decodeEdge ew = .nothing := by
  unfold decodeEdge
  split <;> simp_all

/-- A completion word decodes to COMPLETE exactly if its strobe is 1 (R77). -/
theorem decodeCompletion_strobe (cw : CompletionWord) : cw.getLsbD 0 = false ↔ decodeCompletion cw = .nothing := by
  unfold decodeCompletion
  split <;> simp_all

end Sys2Proof
end

