-- ==== Sys2Proof/Laws/Lending.lean ====
section
/-! SUPPORT. The bytes of a region: what 20_memory.md R51 leaves open is only about pairs that are no region (log 17). -/

namespace Sys2Proof.Machine

/-- Every byte of a pair that is a region lies in the address space (R51). -/
theorem inRegion_lt (addr : Addr) (n : SampleCount) (b : Nat) (hr : isRegion addr n = true)
    (hb : inRegion addr n b = true) : b < 2 ^ 32 := by
  simp only [isRegion, inRegion, decide_eq_true_eq, Bool.and_eq_true] at hr hb
  omega

end Sys2Proof.Machine
end

