-- ==== Sys2Proof/Laws/State.lean ====
section
/-! SUPPORT. One lemma for each field of each update of the state, true by unfolding, so that no later proof unfolds a
record update. -/

namespace Sys2Proof.Machine

variable (s : State) (pd : PulseState) (ho : Handoff) (r : Response) (c : OutCmd) (k : ResultCode)
variable (now : Tick) (cfgOk : Bool) (ins : List Instant) (p : PulseState) (h : Handoff)
variable (lvl b : Bool) (t : Tick) (n8 : PulseCount) (addr : Addr) (n : SampleCount)

@[simp] theorem State.withPd_pd : (s.withPd pd).pd = pd := rfl
@[simp] theorem State.withPd_ho : (s.withPd pd).ho = s.ho := rfl
@[simp] theorem State.withPd_params : (s.withPd pd).params = s.params := rfl
@[simp] theorem State.withPd_now : (s.withPd pd).now = s.now := rfl
@[simp] theorem State.withPd_cfgOk : (s.withPd pd).cfgOk = s.cfgOk := rfl
@[simp] theorem State.withPd_inputs : (s.withPd pd).inputs = s.inputs := rfl
@[simp] theorem State.withPd_responses : (s.withPd pd).responses = s.responses := rfl
@[simp] theorem State.withPd_portO : (s.withPd pd).portO = s.portO := rfl

@[simp] theorem State.withHo_pd : (s.withHo ho).pd = s.pd := rfl
@[simp] theorem State.withHo_ho : (s.withHo ho).ho = ho := rfl
@[simp] theorem State.withHo_params : (s.withHo ho).params = s.params := rfl
@[simp] theorem State.withHo_now : (s.withHo ho).now = s.now := rfl
@[simp] theorem State.withHo_cfgOk : (s.withHo ho).cfgOk = s.cfgOk := rfl
@[simp] theorem State.withHo_inputs : (s.withHo ho).inputs = s.inputs := rfl
@[simp] theorem State.withHo_responses : (s.withHo ho).responses = s.responses := rfl
@[simp] theorem State.withHo_portO : (s.withHo ho).portO = s.portO := rfl

@[simp] theorem State.respond_pd : (s.respond r).pd = s.pd := rfl
@[simp] theorem State.respond_ho : (s.respond r).ho = s.ho := rfl
@[simp] theorem State.respond_params : (s.respond r).params = s.params := rfl
@[simp] theorem State.respond_now : (s.respond r).now = s.now := rfl
@[simp] theorem State.respond_cfgOk : (s.respond r).cfgOk = s.cfgOk := rfl
@[simp] theorem State.respond_inputs : (s.respond r).inputs = s.inputs := rfl
@[simp] theorem State.respond_responses : (s.respond r).responses = s.responses ++ [r] := rfl
@[simp] theorem State.respond_portO : (s.respond r).portO = s.portO := rfl

@[simp] theorem State.emit_pd : (s.emit c).pd = s.pd := rfl
@[simp] theorem State.emit_ho : (s.emit c).ho = s.ho := rfl
@[simp] theorem State.emit_params : (s.emit c).params = s.params := rfl
@[simp] theorem State.emit_now : (s.emit c).now = s.now := rfl
@[simp] theorem State.emit_cfgOk : (s.emit c).cfgOk = s.cfgOk := rfl
@[simp] theorem State.emit_inputs : (s.emit c).inputs = s.inputs := rfl
@[simp] theorem State.emit_responses : (s.emit c).responses = s.responses := rfl
@[simp] theorem State.emit_portO : (s.emit c).portO = s.portO ++ [c] := rfl

@[simp] theorem State.raise_pd : (s.raise k).pd = s.pd := rfl
@[simp] theorem State.raise_ho : (s.raise k).ho = s.ho := rfl
@[simp] theorem State.raise_params : (s.raise k).params = s.params := rfl
@[simp] theorem State.raise_now : (s.raise k).now = s.now := rfl
@[simp] theorem State.raise_cfgOk : (s.raise k).cfgOk = s.cfgOk := rfl
@[simp] theorem State.raise_inputs : (s.raise k).inputs = s.inputs := rfl
@[simp] theorem State.raise_responses : (s.raise k).responses = s.responses ++ [Response.error k] := rfl
@[simp] theorem State.raise_portO : (s.raise k).portO = s.portO := rfl

@[simp] theorem State.sample_pd : (s.sample now cfgOk ins).pd = s.pd := rfl
@[simp] theorem State.sample_ho : (s.sample now cfgOk ins).ho = s.ho := rfl
@[simp] theorem State.sample_params : (s.sample now cfgOk ins).params = s.params := rfl
@[simp] theorem State.sample_now : (s.sample now cfgOk ins).now = now := rfl
@[simp] theorem State.sample_cfgOk : (s.sample now cfgOk ins).cfgOk = cfgOk := rfl
@[simp] theorem State.sample_inputs : (s.sample now cfgOk ins).inputs = ins := rfl
@[simp] theorem State.sample_responses : (s.sample now cfgOk ins).responses = s.responses := rfl
@[simp] theorem State.sample_portO : (s.sample now cfgOk ins).portO = s.portO := rfl

@[simp] theorem State.resetRegisters_pd : (s.resetRegisters).pd = PulseState.reset := rfl
@[simp] theorem State.resetRegisters_ho : (s.resetRegisters).ho = Handoff.reset := rfl
@[simp] theorem State.resetRegisters_params : (s.resetRegisters).params = s.params := rfl
@[simp] theorem State.resetRegisters_now : (s.resetRegisters).now = s.now := rfl
@[simp] theorem State.resetRegisters_cfgOk : (s.resetRegisters).cfgOk = s.cfgOk := rfl
@[simp] theorem State.resetRegisters_inputs : (s.resetRegisters).inputs = s.inputs := rfl
@[simp] theorem State.resetRegisters_responses : (s.resetRegisters).responses = s.responses := rfl
@[simp] theorem State.resetRegisters_portO : (s.resetRegisters).portO = s.portO := rfl

@[simp] theorem PulseState.observe_lastLevel : (p.observe lvl).lastLevel = lvl := rfl
@[simp] theorem PulseState.observe_fallTs : (p.observe lvl).fallTs = p.fallTs := rfl
@[simp] theorem PulseState.observe_count : (p.observe lvl).count = p.count := rfl
@[simp] theorem PulseState.observe_lastPulseTs : (p.observe lvl).lastPulseTs = p.lastPulseTs := rfl

@[simp] theorem PulseState.recordFall_lastLevel : (p.recordFall t).lastLevel = p.lastLevel := rfl
@[simp] theorem PulseState.recordFall_fallTs : (p.recordFall t).fallTs = t := rfl
@[simp] theorem PulseState.recordFall_count : (p.recordFall t).count = p.count := rfl
@[simp] theorem PulseState.recordFall_lastPulseTs : (p.recordFall t).lastPulseTs = p.lastPulseTs := rfl

@[simp] theorem PulseState.recordPulse_lastLevel : (p.recordPulse n8 t).lastLevel = p.lastLevel := rfl
@[simp] theorem PulseState.recordPulse_fallTs : (p.recordPulse n8 t).fallTs = p.fallTs := rfl
@[simp] theorem PulseState.recordPulse_count : (p.recordPulse n8 t).count = n8 := rfl
@[simp] theorem PulseState.recordPulse_lastPulseTs : (p.recordPulse n8 t).lastPulseTs = t := rfl

@[simp] theorem PulseState.clearCount_lastLevel : (p.clearCount).lastLevel = p.lastLevel := rfl
@[simp] theorem PulseState.clearCount_fallTs : (p.clearCount).fallTs = p.fallTs := rfl
@[simp] theorem PulseState.clearCount_count : (p.clearCount).count = 0 := rfl
@[simp] theorem PulseState.clearCount_lastPulseTs : (p.clearCount).lastPulseTs = p.lastPulseTs := rfl

@[simp] theorem Handoff.clearMailbox_mbFull : (h.clearMailbox).mbFull = false := rfl
@[simp] theorem Handoff.clearMailbox_mbAddr : (h.clearMailbox).mbAddr = h.mbAddr := rfl
@[simp] theorem Handoff.clearMailbox_mbCount : (h.clearMailbox).mbCount = h.mbCount := rfl
@[simp] theorem Handoff.clearMailbox_playing : (h.clearMailbox).playing = h.playing := rfl
@[simp] theorem Handoff.clearMailbox_stop : (h.clearMailbox).stop = h.stop := rfl
@[simp] theorem Handoff.clearMailbox_curAddr : (h.clearMailbox).curAddr = h.curAddr := rfl
@[simp] theorem Handoff.clearMailbox_curCount : (h.clearMailbox).curCount = h.curCount := rfl
@[simp] theorem Handoff.clearMailbox_fillSel : (h.clearMailbox).fillSel = h.fillSel := rfl

@[simp] theorem Handoff.install_mbFull : (h.install addr n).mbFull = true := rfl
@[simp] theorem Handoff.install_mbAddr : (h.install addr n).mbAddr = addr := rfl
@[simp] theorem Handoff.install_mbCount : (h.install addr n).mbCount = n := rfl
@[simp] theorem Handoff.install_playing : (h.install addr n).playing = h.playing := rfl
@[simp] theorem Handoff.install_stop : (h.install addr n).stop = h.stop := rfl
@[simp] theorem Handoff.install_curAddr : (h.install addr n).curAddr = h.curAddr := rfl
@[simp] theorem Handoff.install_curCount : (h.install addr n).curCount = h.curCount := rfl
@[simp] theorem Handoff.install_fillSel : (h.install addr n).fillSel = h.fillSel := rfl

@[simp] theorem Handoff.setShadow_mbFull : (h.setShadow addr n).mbFull = h.mbFull := rfl
@[simp] theorem Handoff.setShadow_mbAddr : (h.setShadow addr n).mbAddr = h.mbAddr := rfl
@[simp] theorem Handoff.setShadow_mbCount : (h.setShadow addr n).mbCount = h.mbCount := rfl
@[simp] theorem Handoff.setShadow_playing : (h.setShadow addr n).playing = h.playing := rfl
@[simp] theorem Handoff.setShadow_stop : (h.setShadow addr n).stop = h.stop := rfl
@[simp] theorem Handoff.setShadow_curAddr : (h.setShadow addr n).curAddr = addr := rfl
@[simp] theorem Handoff.setShadow_curCount : (h.setShadow addr n).curCount = n := rfl
@[simp] theorem Handoff.setShadow_fillSel : (h.setShadow addr n).fillSel = h.fillSel := rfl

@[simp] theorem Handoff.setPlaying_mbFull : (h.setPlaying b).mbFull = h.mbFull := rfl
@[simp] theorem Handoff.setPlaying_mbAddr : (h.setPlaying b).mbAddr = h.mbAddr := rfl
@[simp] theorem Handoff.setPlaying_mbCount : (h.setPlaying b).mbCount = h.mbCount := rfl
@[simp] theorem Handoff.setPlaying_playing : (h.setPlaying b).playing = b := rfl
@[simp] theorem Handoff.setPlaying_stop : (h.setPlaying b).stop = h.stop := rfl
@[simp] theorem Handoff.setPlaying_curAddr : (h.setPlaying b).curAddr = h.curAddr := rfl
@[simp] theorem Handoff.setPlaying_curCount : (h.setPlaying b).curCount = h.curCount := rfl
@[simp] theorem Handoff.setPlaying_fillSel : (h.setPlaying b).fillSel = h.fillSel := rfl

@[simp] theorem Handoff.setStop_mbFull : (h.setStop b).mbFull = h.mbFull := rfl
@[simp] theorem Handoff.setStop_mbAddr : (h.setStop b).mbAddr = h.mbAddr := rfl
@[simp] theorem Handoff.setStop_mbCount : (h.setStop b).mbCount = h.mbCount := rfl
@[simp] theorem Handoff.setStop_playing : (h.setStop b).playing = h.playing := rfl
@[simp] theorem Handoff.setStop_stop : (h.setStop b).stop = b := rfl
@[simp] theorem Handoff.setStop_curAddr : (h.setStop b).curAddr = h.curAddr := rfl
@[simp] theorem Handoff.setStop_curCount : (h.setStop b).curCount = h.curCount := rfl
@[simp] theorem Handoff.setStop_fillSel : (h.setStop b).fillSel = h.fillSel := rfl

@[simp] theorem Handoff.swapRoles_mbFull : (h.swapRoles).mbFull = h.mbFull := rfl
@[simp] theorem Handoff.swapRoles_mbAddr : (h.swapRoles).mbAddr = h.mbAddr := rfl
@[simp] theorem Handoff.swapRoles_mbCount : (h.swapRoles).mbCount = h.mbCount := rfl
@[simp] theorem Handoff.swapRoles_playing : (h.swapRoles).playing = h.playing := rfl
@[simp] theorem Handoff.swapRoles_stop : (h.swapRoles).stop = h.stop := rfl
@[simp] theorem Handoff.swapRoles_curAddr : (h.swapRoles).curAddr = h.curAddr := rfl
@[simp] theorem Handoff.swapRoles_curCount : (h.swapRoles).curCount = h.curCount := rfl
@[simp] theorem Handoff.swapRoles_fillSel : (h.swapRoles).fillSel = !h.fillSel := rfl

end Sys2Proof.Machine
end

