-- ==== Sys2Proof/Laws/Operands.lean ====
section
/-! SUPPORT. One lemma for each operand and each shared operation of the two sub-blocks, saying what it can do. -/

namespace Sys2Proof.Machine

/-- The difference of two stamps as a natural (40_pulse_decoder.md R103). -/
theorem elapsed_toNat (a b : Tick) : (elapsed a b).toNat = (a.toNat + 2 ^ 32 - b.toNat) % 2 ^ 32 := by
  simp only [elapsed, BitVec.toNat_sub]
  omega

theorem inWindow_iff (p : Params) (d : Tick) :
    inWindow p d = true ↔ p.pwMin.toNat ≤ d.toNat ∧ d.toNat ≤ p.pwMax.toNat := by
  simp [inWindow, BitVec.le_def]

theorem pastTimeout_iff (p : Params) (q : Tick) : pastTimeout p q = true ↔ p.idt.toNat < q.toNat := by
  simp [pastTimeout, BitVec.lt_def]

theorem satInc_toNat (c : PulseCount) : (satInc c).toNat = min (c.toNat + 1) 255 := by
  have h := c.isLt
  by_cases hc : c = 255
  · subst hc
    decide
  · have : c.toNat ≠ 255 := fun e => hc (BitVec.eq_of_toNat_eq e)
    rw [satInc, if_neg hc, BitVec.toNat_add]
    have one : (1 : PulseCount).toNat = 1 := rfl
    omega

theorem zext32_eq (c : PulseCount) : zext32 c = BitVec.ofNat 32 c.toNat := by
  apply BitVec.eq_of_toNat_eq
  simp [zext32]

theorem digitDone_iff (p : Params) (t : Tick) (pd : PulseState) :
    digitDone p t pd = true ↔ pd.count ≠ 0 ∧ pastTimeout p (elapsed t pd.lastPulseTs) = true := by
  simp [digitDone]

/-- A falling edge (R101). -/
theorem edgeUpdate_fall (p : Params) (t : Tick) (pd : PulseState) (h : pd.lastLevel = true) :
    edgeUpdate p t false pd = (pd.recordFall t).observe false := by
  simp [edgeUpdate, h]

/-- A rising edge that ends a pulse (R101). -/
theorem edgeUpdate_pulse (p : Params) (t : Tick) (pd : PulseState) (h : pd.lastLevel = false)
    (hw : inWindow p (elapsed t pd.fallTs) = true) :
    edgeUpdate p t true pd = (pd.recordPulse (satInc pd.count) t).observe true := by
  simp [edgeUpdate, h, hw]

/-- A rising edge "discarded as noise" (R101). -/
theorem edgeUpdate_noise (p : Params) (t : Tick) (pd : PulseState) (h : pd.lastLevel = false)
    (hw : inWindow p (elapsed t pd.fallTs) = false) :
    edgeUpdate p t true pd = pd.observe true := by
  simp [edgeUpdate, h, hw]

/-- A notification with no change of level writes nothing (R101(a)). -/
theorem edgeUpdate_same (p : Params) (t : Tick) (pd : PulseState) : edgeUpdate p t pd.lastLevel pd = pd := by
  cases pd with
  | mk l f c q => cases l <;> rfl

theorem ready_iff (h : Handoff) : h.ready = true ↔ h.playing = true ∧ h.stop = false ∧ h.mbFull = false := by
  simp [Handoff.ready, and_assoc]

end Sys2Proof.Machine
end

