-- ==== Sys2Proof/Laws/PerInstr.lean ====
section
/-! SUPPORT. For every operation: its encoded word has the width, and matches the `match` and `mask`, of its row of the
operation map (30_encoding.md R78, spec/opcode_table.json). -/

namespace Sys2Proof.Laws.EncodingMatchesTable

/-- A row of R78: the width of its format, `match` and `mask`. -/
structure Row where
  width : Nat
  pattern : Nat
  mask : Nat

/-- The rows of R78. -/
def row : Instr → Row
  | .nop => ⟨128, 0x00000000, 0xFFFFFFFF⟩
  | .poll => ⟨128, 0x00000001, 0xFFFFFFFF⟩
  | .pdread => ⟨128, 0x00000002, 0xFFFFFFFF⟩
  | .start _ _ _ => ⟨128, 0x00000004, 0xFFFFFFFF⟩
  | .ready => ⟨128, 0x00000005, 0xFFFFFFFF⟩
  | .enqueue _ _ => ⟨128, 0x00000006, 0xFFFFFFFF⟩
  | .stop => ⟨128, 0x00000007, 0xFFFFFFFF⟩
  | .swap => ⟨128, 0x00000008, 0xFFFFFFFF⟩
  | .pbread => ⟨128, 0x00000009, 0xFFFFFFFF⟩
  | .pbcur => ⟨128, 0x0000000A, 0xFFFFFFFF⟩
  | .edge _ => ⟨2, 0b10, 0b10⟩
  | .complete => ⟨1, 0b1, 0b1⟩

/-- The width of a port word. -/
def width : PortWord → Nat
  | .h _ => 128
  | .e _ => 2
  | .c _ => 1

/-- The bits `match` and `mask` are over: `hc[31:0]`, `ew` or `cw`. -/
def matched : PortWord → Nat
  | .h hc => hc.toNat % 2 ^ 32
  | .e ew => ew.toNat
  | .c cw => cw.toNat

/-- The encoded word is one of its row. -/
def Statement (i : Instr) : Prop :=
  width (encode i) = (row i).width ∧ matched (encode i) &&& (row i).mask = (row i).pattern

/-- The low lane of a word built from lanes is the word's control lane. -/
theorem matched_lanes (l3 l2 l1 l0 : Lane) : matched (.h (lanes l3 l2 l1 l0)) = l0.toNat := by
  simp only [matched, lanes_toNat]
  omega

theorem nop : Statement .nop := ⟨rfl, rfl⟩
theorem poll : Statement .poll := ⟨rfl, rfl⟩
theorem pdread : Statement .pdread := ⟨rfl, rfl⟩

theorem start (rate : Rate) (addr : Addr) (n : SampleCount) : Statement (.start rate addr n) := by
  refine ⟨rfl, ?_⟩
  show matched (.h (lanes rate n addr 4)) &&& 0xFFFFFFFF = 4
  rw [matched_lanes]
  rfl

theorem ready : Statement .ready := ⟨rfl, rfl⟩

theorem enqueue (addr : Addr) (n : SampleCount) : Statement (.enqueue addr n) := by
  refine ⟨rfl, ?_⟩
  show matched (.h (lanes 0 n addr 6)) &&& 0xFFFFFFFF = 6
  rw [matched_lanes]
  rfl

theorem stop : Statement .stop := ⟨rfl, rfl⟩
theorem swap : Statement .swap := ⟨rfl, rfl⟩
theorem pbread : Statement .pbread := ⟨rfl, rfl⟩
theorem pbcur : Statement .pbcur := ⟨rfl, rfl⟩

theorem edge (lvl : Bool) : Statement (.edge lvl) := by cases lvl <;> exact ⟨rfl, rfl⟩

theorem complete : Statement .complete := ⟨rfl, rfl⟩

end Sys2Proof.Laws.EncodingMatchesTable
end

