-- ==== Sys2Proof/Laws/Run.lean ====
section
/-! SUPPORT. How runs unfold: the host's `Core.run` over steps, and `execAll` over events. -/

namespace Sys2Proof.Machine

theorem run_succ (k : Nat) (s t : State) (h : step s = .next t) : core.run (k + 1) s = core.run k t := by
  simp [Host.Core.run, core, h]

theorem run_zero (s : State) : core.run 0 s = .next s := rfl

theorem execAll_nil (s : State) : execAll [] s = .next s := rfl

theorem execAll_cons (e : Event) (es : List Event) (s t : State) (h : execEvent e s = .next t) :
    execAll (e :: es) s = execAll es t := by
  simp [execAll, h]

theorem execAll_append (a b : List Event) (s t : State) (h : execAll a s = .next t) :
    execAll (a ++ b) s = execAll b t := by
  induction a generalizing s with
  | nil =>
    cases h
    rfl
  | cons e es ih =>
    cases he : execEvent e s with
    | next u =>
      rw [execAll_cons e es s u he] at h
      rw [List.cons_append, execAll_cons e _ s u he]
      exact ih u h
    | fault r => cases r
    | refused r => simp [execAll, he] at h

end Sys2Proof.Machine
end

