-- ==== Sys2Proof/Laws/Step.lean ====
section
/-! SUPPORT. What each operation answers, as an equation, and what a step accepts: the lemmas to cite instead of unfolding
`exec` and `step`. -/

namespace Sys2Proof.Machine

variable (s : State) (rate : Rate) (addr : Addr) (n : SampleCount) (lvl : Bool)

theorem exec_nop : exec .nop s = .next (s.respond (Response.answer false)) := rfl

theorem exec_poll_digit (h : digitDone s.params s.now s.pd = true) :
    exec .poll s = .next ((s.withPd s.pd.clearCount).respond (Response.data true (zext32 s.pd.count) 0 0)) := by
  simp [exec, execPoll, State.t, h]

theorem exec_poll_none (h : digitDone s.params s.now s.pd = false) :
    exec .poll s = .next (s.respond (Response.answer false)) := by
  simp [exec, execPoll, State.t, h]

theorem exec_pdread :
    exec .pdread s = .next (s.respond (Response.data false s.pd.status s.pd.fallTs s.pd.lastPulseTs)) := rfl

theorem exec_start_ok (h : s.cfgOk = true) : exec (.start rate addr n) s =
    .next (((s.emit (.configureLoop rate addr n)).withHo (s.ho.begin addr n)).respond (Response.answer false)) := by
  simp [exec, execStart, State.configured, h]

theorem exec_start_fail (h : s.cfgOk = false) :
    exec (.start rate addr n) s = .next ((s.emit (.configureLoop rate addr n)).raise .errResource) := by
  simp [exec, execStart, State.configured, h]

theorem exec_ready : exec .ready s = .next (s.respond (Response.answer s.ho.ready)) := rfl

theorem exec_enqueue_stopped (h : s.ho.stop = true) : exec (.enqueue addr n) s = .next (s.raise .stopped) := by
  simp [exec, execEnqueue, h]

theorem exec_enqueue_ok (h : s.ho.stop = false) :
    exec (.enqueue addr n) s = .next ((s.withHo (s.ho.install addr n)).respond (Response.answer false)) := by
  simp [exec, execEnqueue, h]

theorem exec_stop : exec .stop s =
    .next (((s.withHo ((s.ho.setStop true).setPlaying false)).emit .abort).respond (Response.answer false)) := rfl

theorem exec_swap :
    exec .swap s = .next ((s.withHo s.ho.swapRoles).respond (Response.answer (!s.ho.fillSel))) := rfl

theorem exec_pbread :
    exec .pbread s = .next (s.respond (Response.data false s.ho.status s.ho.mbAddr s.ho.mbCount)) := rfl

theorem exec_pbcur :
    exec .pbcur s = .next (s.respond (Response.data s.ho.playing s.ho.curAddr s.ho.curCount 0)) := rfl

theorem exec_edge : exec (.edge lvl) s = .next (s.withPd (edgeUpdate s.params s.now lvl s.pd)) := rfl

theorem exec_complete_retarget (hp : s.ho.playing = true) (hf : s.ho.mbFull = true) : exec .complete s =
    .next ((s.withHo (s.ho.clearMailbox.setShadow s.ho.mbAddr s.ho.mbCount)).emit
      (.retarget s.ho.mbAddr s.ho.mbCount)) := by
  simp [exec, execComplete, hp, hf]

theorem exec_complete_drain (hp : s.ho.playing = true) (hf : s.ho.mbFull = false) :
    exec .complete s = .next ((s.withHo (s.ho.clearMailbox.setPlaying false)).emit .abort) := by
  simp [exec, execComplete, hp, hf]

theorem exec_complete_idle (hp : s.ho.playing = false) : exec .complete s = .next (s.withHo s.ho.clearMailbox) := by
  simp [exec, execComplete, hp]

theorem execIllegal_eq : execIllegal s = .next (s.raise .errIllegal) := rfl

variable (p : Instant) (rest : List Instant)

theorem accept_nil (h : s.inputs = []) : s.accept = (.idle, s) := by
  simp [State.accept, h]

theorem accept_cons (h : s.inputs = p :: rest) :
    s.accept = (p.accept.1, s.sample p.now p.cfgOk (p.accept.2.toList ++ rest)) := by
  simp [State.accept, h]

/-- A step is one of four things, told by what is accepted. -/
theorem step_op (i : Instr) (s' : State) (h : s.accept = (.op i, s')) : step s = exec i s' := by
  simp [step, h]

theorem step_reset (s' : State) (h : s.accept = (.reset, s')) : step s = .next s'.resetRegisters := by
  simp [step, h]

theorem step_illegal (why : IllegalCommand) (s' : State) (h : s.accept = (.illegal why, s')) :
    step s = execIllegal s' := by
  simp [step, h]

theorem step_idle (s' : State) (h : s.accept = (.idle, s')) : step s = .next s' := by
  simp [step, h]

/-- Accepting changes no register, no parameter and nothing that has left the block. -/
theorem accept_frame (o : Offer) (s' : State) (h : s.accept = (o, s')) :
    s' = { s with now := s'.now, cfgOk := s'.cfgOk, inputs := s'.inputs } := by
  unfold State.accept at h
  split at h <;> cases h <;> rfl

/-- What an instant with no reset, no edge and no completion presents is its host command. -/
theorem instant_accept_host (hc : Word128) (hr : p.rst = false) (he : p.ew.getLsbD 1 = false)
    (hcw : p.cw.getLsbD 0 = false) (hh : p.hc = some hc) : p.accept = (offerOf (decodeHost hc), none) := by
  unfold Instant.accept
  rw [hr, he, hcw, hh]
  rfl

/-- What each operation can do, said once: the operation, what held of the state before, and the state after. -/
theorem exec_cases (i : Instr) (s t : State) (h : exec i s = .next t) :
    (i = .nop ∧ t = s.respond (Response.answer false)) ∨
    (i = .poll ∧ digitDone s.params s.now s.pd = true ∧
      t = (s.withPd s.pd.clearCount).respond (Response.data true (zext32 s.pd.count) 0 0)) ∨
    (i = .poll ∧ digitDone s.params s.now s.pd = false ∧ t = s.respond (Response.answer false)) ∨
    (i = .pdread ∧ t = s.respond (Response.data false s.pd.status s.pd.fallTs s.pd.lastPulseTs)) ∨
    (∃ rate addr n, i = .start rate addr n ∧ s.cfgOk = true ∧
      t = ((s.emit (.configureLoop rate addr n)).withHo (s.ho.begin addr n)).respond (Response.answer false)) ∨
    (∃ rate addr n, i = .start rate addr n ∧ s.cfgOk = false ∧
      t = (s.emit (.configureLoop rate addr n)).raise .errResource) ∨
    (i = .ready ∧ t = s.respond (Response.answer s.ho.ready)) ∨
    (∃ addr n, i = .enqueue addr n ∧ s.ho.stop = true ∧ t = s.raise .stopped) ∨
    (∃ addr n, i = .enqueue addr n ∧ s.ho.stop = false ∧
      t = (s.withHo (s.ho.install addr n)).respond (Response.answer false)) ∨
    (i = .stop ∧
      t = ((s.withHo ((s.ho.setStop true).setPlaying false)).emit .abort).respond (Response.answer false)) ∨
    (i = .swap ∧ t = (s.withHo s.ho.swapRoles).respond (Response.answer (!s.ho.fillSel))) ∨
    (i = .pbread ∧ t = s.respond (Response.data false s.ho.status s.ho.mbAddr s.ho.mbCount)) ∨
    (i = .pbcur ∧ t = s.respond (Response.data s.ho.playing s.ho.curAddr s.ho.curCount 0)) ∨
    (∃ lvl, i = .edge lvl ∧ t = s.withPd (edgeUpdate s.params s.now lvl s.pd)) ∨
    (i = .complete ∧ s.ho.playing = true ∧ s.ho.mbFull = true ∧
      t = (s.withHo (s.ho.clearMailbox.setShadow s.ho.mbAddr s.ho.mbCount)).emit
        (.retarget s.ho.mbAddr s.ho.mbCount)) ∨
    (i = .complete ∧ s.ho.playing = true ∧ s.ho.mbFull = false ∧
      t = (s.withHo (s.ho.clearMailbox.setPlaying false)).emit .abort) ∨
    (i = .complete ∧ s.ho.playing = false ∧ t = s.withHo s.ho.clearMailbox) := by
  cases i with
  | poll =>
    rcases (Bool.eq_false_or_eq_true (digitDone s.params s.now s.pd)).symm with hd | hd
    · rw [exec_poll_none _ hd] at h
      cases h
      simp [hd]
    · rw [exec_poll_digit _ hd] at h
      cases h
      simp [hd]
  | start r a n =>
    rcases (Bool.eq_false_or_eq_true s.cfgOk).symm with hd | hd
    · rw [exec_start_fail _ _ _ _ hd] at h
      cases h
      simp [hd]
    · rw [exec_start_ok _ _ _ _ hd] at h
      cases h
      simp [hd]
  | enqueue a n =>
    rcases (Bool.eq_false_or_eq_true s.ho.stop).symm with hd | hd
    · rw [exec_enqueue_ok _ _ _ hd] at h
      cases h
      simp [hd]
    · rw [exec_enqueue_stopped _ _ _ hd] at h
      cases h
      simp [hd]
  | complete =>
    rcases (Bool.eq_false_or_eq_true s.ho.playing).symm with hd | hd
    · rw [exec_complete_idle _ hd] at h
      cases h
      simp [hd]
    · rcases (Bool.eq_false_or_eq_true s.ho.mbFull).symm with hm | hm
      · rw [exec_complete_drain _ hd hm] at h
        cases h
        simp [hd, hm]
      · rw [exec_complete_retarget _ hd hm] at h
        cases h
        simp [hd, hm]
  | edge l =>
    cases h
    simp [State.t]
  | _ =>
    cases h
    simp

end Sys2Proof.Machine
end

