-- ==== Sys2Proof/Tests/Slice0.lean ====
section
/-! SUPPORT. Tests: the well-formedness checks, decoding of words written out from the spec's formats, one or two vectors
of 95_test_vectors.md for each operation, and a witness for the hypotheses of every statement. Expected results are the
spec's own. -/

namespace Sys2Proof.Tests

open Sys2Proof.Machine

/-- The parameter values of 95_test_vectors.md's conventions. -/
def params : Params := ⟨30000, 90000, 200000, 1, 0x20001000, 0x20001800, 2048⟩

/-- The state of R40 with those parameters. -/
def base : State := ⟨PulseState.reset, Handoff.reset, params, 0, true, [], [], []⟩

/-- A state with the given PulseState, written `(last_level, fall_ts, count, last_pulse_ts)`, at time `t`. -/
def pdAt (l : Bool) (f : Tick) (c : PulseCount) (q t : Tick) : State := { base with pd := ⟨l, f, c, q⟩, now := t }

/-- A state with the given handoff registers, written `[playing stop mb_full / mb / cur / fill_sel]`. -/
def hoAt (playing stop full : Bool) (ma : Addr) (mn : SampleCount) (ca : Addr) (cn : SampleCount) (f : Bool) : State :=
  { base with ho := ⟨full, ma, mn, playing, stop, ca, cn, f⟩ }

/-- The state after a step, if there is one. -/
def after : StepResult → Option State
  | .next s => some s
  | .fault _ => none
  | .refused _ => none

def pdAfter (r : StepResult) : Option PulseState := (after r).map (·.pd)
def hoAfter (r : StepResult) : Option Handoff := (after r).map (·.ho)
def said (r : StepResult) : Option (List Word128) := (after r).map (fun s => s.responses.map Response.word)
def sent (r : StepResult) : Option (List Word128) := (after r).map (fun s => s.portO.map OutCmd.word)

-- ==== WellFormed: an ill-formed term for each check ====

theorem test_line_wrong_agent : (Line.mk .host (.edge true) (some 5) none).wf = false := by decide
theorem test_line_no_time : (Line.mk .host .poll none none).wf = false := by decide
theorem test_line_no_cfgOk : (Line.mk .host (.start 1 2 3) none none).wf = false := by decide
theorem test_line_wf : (Line.mk .host (.start 1 2 3) none (some true)).wf = true := by decide
theorem test_params_window : ({ params with pwMin := 90001 } : Params).wf = false := by decide
theorem test_params_wrap : ({ params with chunkBase1 := 0xFFFFF900 } : Params).wf = false := by decide
theorem test_params_overlap : ({ params with chunkBytes := 2049 } : Params).wf = false := by decide
theorem test_params_wf : params.wf = true := by decide

-- ==== Decode: each constructor from a word written out from R71, R75, R77, R78 ====

theorem test_decode_nop : decode (.h 0x00000000000000000000000000000000) = .op .nop := by decide
theorem test_decode_poll : decode (.h 0x0000000900000007DEADBEEF00000001) = .op .poll := by decide
theorem test_decode_pdread : decode (.h 0x00000000000000000000000000000002) = .op .pdread := by decide
theorem test_decode_start :
    decode (.h 0x0000AC44000003EA2000102C00000004) = .op (.start 44100 0x2000102C 1002) := by decide
theorem test_decode_ready : decode (.h 0x00000000000000000000000000000005) = .op .ready := by decide
theorem test_decode_enqueue :
    decode (.h 0x00000000000004002000180000000006) = .op (.enqueue 0x20001800 1024) := by decide
theorem test_decode_stop : decode (.h 0x00000000000000000000000000000007) = .op .stop := by decide
theorem test_decode_swap : decode (.h 0x00000000000000000000000000000008) = .op .swap := by decide
theorem test_decode_pbread : decode (.h 0x00000000000000000000000000000009) = .op .pbread := by decide
theorem test_decode_pbcur : decode (.h 0x0000000000000000000000000000000A) = .op .pbcur := by decide
theorem test_decode_edge : decode (.e 0b10) = .op (.edge false) ∧ decode (.e 0b11) = .op (.edge true) := by decide
theorem test_decode_complete : decode (.c 0b1) = .op .complete := by decide
theorem test_decode_no_strobe : decode (.e 0b01) = .nothing ∧ decode (.c 0b0) = .nothing := by decide
theorem test_decode_reserved_op :
    decode (.h 0x3) = .illegal .reservedOp ∧ decode (.h 0xB) = .illegal .reservedOp
      ∧ decode (.h 0xF) = .illegal .reservedOp := by decide
theorem test_decode_reserved_bits :
    decode (.h 0x11) = .illegal .reservedBits ∧ decode (.h 0x80000001) = .illegal .reservedBits := by decide
theorem test_table_words :
    decodeTableWord 128 0x6 = some (.enqueue 0 0) ∧ decodeTableWord 32 0x4 = some (.start 0 0 0)
      ∧ decodeTableWord 2 0b10 = some (.edge false) ∧ decodeTableWord 1 0b1 = some .complete
      ∧ decodeTableWord 8 0b11 = some (.edge true) ∧ decodeTableWord 8 0b1 = some .complete := by decide
theorem test_table_word_runs_from_reset :
    step (State.reset.withFetchWord 128 0x7) = exec .stop State.reset
      ∧ step (State.reset.withFetchWord 8 0b10) = exec (.edge false) State.reset := ⟨rfl, rfl⟩

-- ==== One operation, vectors of 95_test_vectors.md ====

/-- V14, second EDGE: saturation, `last_pulse_ts` still written. -/
theorem test_edge_saturates : pdAfter (exec (.edge true) (pdAt false 60000 255 50000 110000)) =
    some ⟨true, 60000, 255, 110000⟩ := by decide
/-- V15: a pulse across the wrap of time. -/
theorem test_edge_wraps : pdAfter (exec (.edge true) (pdAt false 0xFFFF0000 0 0 0x00005000)) =
    some ⟨true, 0xFFFF0000, 1, 0x00005000⟩ := by decide
/-- V30: a digit during a low period; V24: no digit at `quiet = IDT` across the wrap. -/
theorem test_poll_digit : said (exec .poll (pdAt false 420000 2 320000 600000)) =
    some [0x00000000000000000000000200000010] := by decide
theorem test_poll_exact_timeout : said (exec .poll (pdAt true 0 10 0xFFFFFF00 0x00030C40)) = some [0] := by decide
/-- V40: a failed configuration. -/
theorem test_start_fails : said (exec (.start 44100 0x20001000 1024) { base with cfgOk := false }) = some [2]
    ∧ sent (exec (.start 44100 0x20001000 1024) { base with cfgOk := false })
      = some [0x0000AC44000004002000100000000001] := by decide
/-- V41: START while Playing with a full mailbox. -/
theorem test_start_replaces :
    hoAfter (exec (.start 22050 0x20001800 100) (hoAt true false true 0x20001800 1024 0x20001000 1024 false)) =
      some ⟨false, 0x20001800, 1024, true, false, 0x20001800, 100, false⟩ := by decide
/-- S3, steps 2 and 4. -/
theorem test_ready_after_start : said (exec .ready (hoAt true false false 0 0 0x2000102C 1002 false)) = some [0x10] := by
  decide
theorem test_ready_full : said (exec .ready (hoAt true false true 0x20001800 1024 0x2000102C 1002 false)) = some [0] := by
  decide
/-- S4, B over A; V45. -/
theorem test_enqueue_overwrites :
    hoAfter (exec (.enqueue 0x20001800 512) (hoAt true false true 0x20001800 1024 0x2000102C 1002 false)) =
      some ⟨true, 0x20001800, 512, true, false, 0x2000102C, 1002, false⟩ := by decide
theorem test_enqueue_stopped : said (exec (.enqueue 1 1) (hoAt false true false 0 0 0 0 false)) = some [1] := by decide
/-- V53. -/
theorem test_stop : hoAfter (exec .stop (hoAt true false true 0x20001800 1024 0x2000102C 1002 true)) =
    some ⟨true, 0x20001800, 1024, false, true, 0x2000102C, 1002, true⟩
    ∧ sent (exec .stop (hoAt true false true 0x20001800 1024 0x2000102C 1002 true)) = some [3] := by decide
/-- V47; V50. -/
theorem test_complete_retargets :
    sent (exec .complete (hoAt true false true 0x20001800 1024 0x2000102C 1002 true)) =
      some [0x00000000000004002000180000000002] := by decide
theorem test_complete_late : hoAfter (exec .complete (hoAt false true true 0x20001000 1024 0x20001800 512 false)) =
    some ⟨false, 0x20001000, 1024, false, true, 0x20001800, 512, false⟩
    ∧ sent (exec .complete (hoAt false true true 0x20001000 1024 0x20001800 512 false)) = some [] := by decide
/-- V52. -/
theorem test_swap : said (exec .swap base) = some [0x10] ∧ said (exec .swap (hoAt false false false 0 0 0 0 true)) = some [0] := by
  decide
/-- V60. -/
theorem test_nop : said (exec .nop base) = some [0] := by decide
/-- V63. -/
theorem test_pdread : said (exec .pdread (pdAt true 1000 3 61000 0)) =
    some [0x0000EE48000003E80000010300000000] := by decide
/-- V65; V66. -/
theorem test_pbread : said (exec .pbread (hoAt true false true 0x20001800 1024 0x2000102C 1002 true)) =
    some [0x00000400200018000000001500000000] := by decide
theorem test_pbread_ready : said (exec .pbread (hoAt true false false 0x20001800 1024 0x20001000 256 false)) =
    some [0x00000400200018000000000900000000] := by decide
/-- V68. -/
theorem test_pbcur : said (exec .pbcur (hoAt true false false 0x20001000 512 0x20001000 512 false)) =
    some [0x00000000000002002000100000000010] := by decide
/-- V71: an illegal command by a step. -/
theorem test_illegal_step :
    said (step ((pdAt true 0 2 0 1000000).present (.h 0x11))) = some [3]
      ∧ pdAfter (step ((pdAt true 0 2 0 1000000).present (.h 0x11))) = some ⟨true, 0, 2, 0⟩ := by decide
/-- V83: the EDGE of an instant goes before its POLL. -/
theorem test_edge_goes_first :
    pdAfter (step { pdAt false 241000 2 500 0 with inputs := [⟨false, 301000, 0b11, 0, some 1, true⟩] }) =
      some ⟨true, 241000, 3, 301000⟩ := by decide
/-- R41: a reset step. -/
theorem test_reset_step :
    (after (step { pdAt false 241000 2 500 0 with inputs := [⟨true, 301000, 0b11, 1, some 1, true⟩] })).map
      (fun s => (s.pd, s.inputs, s.responses)) = some (⟨true, 0, 0, 0⟩, [], []) := by decide

-- ==== Witnesses: the hypotheses of each statement can be met, at the boundaries of each clause ====

/-- An instant that presents EDGE 1, COMPLETE and POLL at once. -/
def busy : Instant := ⟨false, 301000, 0b11, 1, some 1, true⟩

/-- A state at that instant. -/
def crowded : State := { pdAt false 241000 2 500 0 with inputs := [busy] }

theorem witness_PortsDecodeByTheOperationMap :
    (0x0 : Word128).toNat % 2 ^ 32 = 0x0 ∧ (0x1 : Word128).toNat % 2 ^ 32 = 0x1 ∧ (0x2 : Word128).toNat % 2 ^ 32 = 0x2
    ∧ (0x4 : Word128).toNat % 2 ^ 32 = 0x4 ∧ (0x5 : Word128).toNat % 2 ^ 32 = 0x5 ∧ (0x6 : Word128).toNat % 2 ^ 32 = 0x6
    ∧ (0x7 : Word128).toNat % 2 ^ 32 = 0x7 ∧ (0x8 : Word128).toNat % 2 ^ 32 = 0x8 ∧ (0x9 : Word128).toNat % 2 ^ 32 = 0x9
    ∧ (0xA : Word128).toNat % 2 ^ 32 = 0xA
    ∧ (0x10 : Word128).toNat % 2 ^ 32 ∉ [0x0, 0x1, 0x2, 0x4, 0x5, 0x6, 0x7, 0x8, 0x9, 0xA] := by decide
theorem witness_PortFixesWhoIssuesWhat :
    decode (.h 0x7) = .op .stop ∧ decode (.e 0b10) = .op (.edge false) ∧ decode (.c 1) = .op .complete := by decide
theorem witness_ResponseWordAndOnePerHostCommand :
    (∃ t, exec .poll base = .next t ∧ Instr.agent .poll = .host) ∧
    (∃ t, exec .complete base = .next t ∧ Instr.agent .complete ≠ .host) ∧
    (let p : Instant := ⟨false, 0, 0, 0, some 0x3, true⟩
     ({ base with inputs := [p] } : State).inputs = p :: [] ∧ p.rst = false ∧ p.ew.getLsbD 1 = false ∧ p.cw = 0
      ∧ p.hc = some 0x3 ∧ decode (.h 0x3) = .illegal .reservedOp) :=
  ⟨⟨_, rfl, rfl⟩, ⟨_, rfl, by decide⟩, by decide⟩
theorem witness_ResetInputRestoresTheRegisters :
    let p : Instant := { busy with rst := true }
    ({ base with inputs := [p] } : State).inputs = p :: [] ∧ p.rst = true ∧ (∃ t, exec .stop base = .next t) :=
  ⟨rfl, rfl, _, rfl⟩
theorem witness_StepRunsTheDecodedOperation :
    crowded.inputs = busy :: [] ∧ busy.rst = false ∧ decode (.e busy.ew) = .op (.edge true) ∧
    (let p : Instant := { busy with ew := 0b01 }
     p.rst = false ∧ decode (.e p.ew) = .nothing ∧ decode (.c p.cw) = .op .complete) ∧
    (let p : Instant := { busy with ew := 0b01, cw := 0 }
     p.rst = false ∧ decode (.e p.ew) = .nothing ∧ decode (.c p.cw) = .nothing ∧ p.hc = some 1
      ∧ decode (.h 1) = .op .poll) := by decide
theorem witness_IllegalCommandAnswersErrIllegal :
    let p (hc : Word128) : Instant := ⟨false, 0, 0b01, 0, some hc, true⟩
    ∀ hc ∈ [(0x3 : Word128), 0xB, 0xC, 0xD, 0xE, 0xF, 0x10, 0x80000001],
      ({ base with inputs := [p hc] } : State).inputs = p hc :: [] ∧ (p hc).rst = false
      ∧ (p hc).ew.getLsbD 1 = false ∧ (p hc).cw = 0 ∧ (p hc).hc = some hc
      ∧ (hc.toNat % 16 ∈ [0x3, 0xB, 0xC, 0xD, 0xE, 0xF] ∨ hc.toNat % 2 ^ 32 / 16 ≠ 0) := by
  intro p hc h
  fin_cases h <;> exact ⟨rfl, rfl, by decide, rfl, rfl, by decide⟩
theorem witness_SameInstantOperationsRunInTheFixedOrder :
    crowded.inputs = busy :: [] ∧ busy.rst = false ∧ decode (.h 1) = .op .poll
    ∧ decode (.e busy.ew) = .op (.edge true) ∧ decode (.c busy.cw) = .op .complete ∧ busy.hc = some 1
    ∧ ({ busy with hc := none } : Instant).hc = none
    ∧ decode (.c ({ busy with cw := 0 } : Instant).cw) = .nothing
    ∧ decode (.e ({ busy with ew := 0 } : Instant).ew) = .nothing := by decide
theorem witness_InputsAreUsedUpAsTheModelFixes :
    base.inputs = [] ∧
    (let p : Instant := ⟨false, 7, 0b01, 0, none, true⟩
     ({ base with inputs := [p] } : State).inputs = p :: [] ∧ p.rst = false ∧ decode (.e p.ew) = .nothing
      ∧ decode (.c p.cw) = .nothing ∧ p.hc = none) ∧
    (let p : Instant := { busy with rst := true }
     ({ base with inputs := [p] } : State).inputs = p :: [] ∧ p.rst = true) ∧
    (let p : Instant := ⟨false, 7, 0b01, 0, some 0x3, true⟩
     p.rst = false ∧ decode (.e p.ew) = .nothing ∧ decode (.c p.cw) = .nothing ∧ p.hc = some 0x3
      ∧ decode (.h 0x3) = .illegal .reservedOp) := by decide
theorem witness_PlacedTableWordRunsNext :
    decodeTableWord 128 0x1 = some .poll ∧ decodeTableWord 2 0b11 = some (.edge true)
    ∧ decodeTableWord 1 1 = some .complete := by decide
theorem witness_OutputsAreOnlyAppended : ∃ t, step crowded = .next t := ⟨_, rfl⟩
theorem witness_ParametersNeverChange : ∃ t, step crowded = .next t := ⟨_, rfl⟩
theorem witness_StepKeepsPlayingAndStopExclusive : crowded.ho.Exclusive ∧ ∃ t, step crowded = .next t :=
  ⟨by decide, ⟨_, rfl⟩⟩
theorem witness_EngineFollowsTheTransitionTable :
    (hoAt true false true 0 0 0 0 false).ho.Exclusive ∧ (hoAt false true true 0 0 0 0 false).ho.Exclusive
    ∧ (hoAt false false false 0 0 0 0 false).ho.Exclusive := by decide
/-- The durations 29999, 30000, 90000 and 90001 (V1, V2, V6, V7), a fall, and a notification without change. -/
theorem witness_EdgeClassifiesAndCounts :
    let dur (now : Tick) : Nat := (now.toNat + 2 ^ 32 - (1000 : Tick).toNat) % 2 ^ 32
    (pdAt true 0 0 0 500).pd.lastLevel = true ∧ (pdAt false 1000 0 0 31000).pd.lastLevel = false
    ∧ dur 30999 < params.pwMin.toNat ∧ params.pwMin.toNat ≤ dur 31000 ∧ dur 31000 ≤ params.pwMax.toNat
    ∧ params.pwMin.toNat ≤ dur 91000 ∧ dur 91000 ≤ params.pwMax.toNat ∧ params.pwMax.toNat < dur 91001
    ∧ true = (pdAt true 0 0 0 500).pd.lastLevel := by decide
/-- `quiet` at 200000 and 200001 (V20, V21), and `count = 0` (V23). -/
theorem witness_PollEmitsTheCountAfterThePause :
    let quiet (now : Tick) : Nat := (now.toNat + 2 ^ 32 - (61000 : Tick).toNat) % 2 ^ 32
    (pdAt true 1000 3 61000 261001).pd.count.toNat ≠ 0 ∧ params.idt.toNat < quiet 261001
    ∧ quiet 261000 ≤ params.idt.toNat ∧ base.pd.count.toNat = 0 := by decide
theorem witness_StartBeginsPlayingOrFailsWhole :
    base.cfgOk = true ∧ ({ base with cfgOk := false } : State).cfgOk = false := by decide
theorem witness_EnqueueInstallsUnlessStopped :
    base.ho.stop = false ∧ (hoAt false true false 0 0 0 0 false).ho.stop = true := by decide
theorem witness_CompleteTakesTheMailbox :
    let h (p f : Bool) : Handoff := (hoAt p false f 0x20001800 1024 0x2000102C 1002 true).ho
    ((h true true).playing = true ∧ (h true true).mbFull = true)
    ∧ ((h true false).playing = true ∧ (h true false).mbFull = false) ∧ (h false true).playing = false := by decide
theorem witness_SubBlocksLeaveEachOtherAlone :
    (∃ t, exec .poll crowded = .next t ∧ isPdOp .poll = true) ∧ (∃ t, exec .stop crowded = .next t ∧ isPdOp .stop = false) :=
  ⟨⟨_, rfl, rfl⟩, ⟨_, rfl, rfl⟩⟩
theorem witness_ReadsChangeNoRegister :
    ∀ i ∈ [Instr.nop, .ready, .pdread, .pbread, .pbcur], ∃ t, exec i crowded = .next t := by
  intro i hi
  fin_cases hi <;> exact ⟨_, rfl⟩
theorem witness_RepeatedOperationsAreIdempotent :
    (∃ t u, exec (.start 1 2 3) base = .next t ∧ (Event.mk (.start 1 2 3) 9 true).op = .start 1 2 3
      ∧ (Event.mk (.start 1 2 3) 9 true).cfgOk = base.cfgOk ∧ execEvent ⟨.start 1 2 3, 9, true⟩ t = .next u) ∧
    (∃ t u, exec .stop base = .next t ∧ execEvent ⟨.stop, 9, true⟩ t = .next u) ∧
    (∃ t u, exec (.enqueue 2 3) base = .next t ∧ execEvent ⟨.enqueue 2 3, 9, true⟩ t = .next u) ∧
    (∃ t u, exec (.edge false) base = .next t ∧ execEvent ⟨.edge false, 9, true⟩ t = .next u) ∧
    (∃ t u, exec .swap base = .next t ∧ execEvent ⟨.swap, 9, true⟩ t = .next u) ∧
    (∃ t u, exec .poll (pdAt true 0 2 0 200001) = .next t ∧ t.pd.count ≠ 2 ∧ execEvent ⟨.poll, 9, true⟩ t = .next u) :=
  ⟨⟨_, _, rfl, rfl, rfl, rfl⟩, ⟨_, _, rfl, rfl⟩, ⟨_, _, rfl, rfl⟩, ⟨_, _, rfl, rfl⟩, ⟨_, _, rfl, rfl⟩,
    ⟨_, _, rfl, by decide, rfl⟩⟩
theorem witness_PlayingIsWrittenAsRuled : ∃ t, exec (.start 1 2 3) base = .next t ∧ t.ho.playing = true := ⟨_, rfl, rfl⟩
theorem witness_StopIsWrittenAsRuled : ∃ t, exec .stop base = .next t ∧ t.ho.stop = true := ⟨_, rfl, rfl⟩
/-- Each of the three ways `count` changes. -/
theorem witness_CountChangesOnlyAsRuled :
    (∃ t, step crowded = .next t ∧ t.pd.count ≠ crowded.pd.count) ∧
    (∃ t, step ((pdAt true 0 2 0 200001).present (.h 1)) = .next t ∧ t.pd.count ≠ 2) ∧
    (∃ t, step { crowded with inputs := [{ busy with rst := true }] } = .next t ∧ t.pd.count ≠ crowded.pd.count) :=
  ⟨⟨_, rfl, by decide⟩, ⟨_, rfl, by decide⟩, ⟨_, rfl, by decide⟩⟩
/-- An answer with each of the codes OK, STOPPED and ERR_RESOURCE. -/
theorem witness_ErrorsComeFromTheirCauseAndChangeNothing :
    (∃ t r, exec .nop base = .next t ∧ t.responses = base.responses ++ [r] ∧ r.code = .ok) ∧
    (∃ t r, exec (.enqueue 1 1) (hoAt false true false 0 0 0 0 false) = .next t ∧ t.responses = [] ++ [r]
      ∧ r.code = .stopped) ∧
    (∃ t r, exec (.start 1 2 3) { base with cfgOk := false } = .next t ∧ t.responses = [] ++ [r]
      ∧ r.code = .errResource) :=
  ⟨⟨_, _, rfl, rfl, rfl⟩, ⟨_, _, rfl, rfl, rfl⟩, ⟨_, _, rfl, rfl, rfl⟩⟩
/-- An EDGE that overwrites `fall_ts`, and one that overwrites `last_pulse_ts`. -/
theorem witness_StaleTimeStampsAreNotRead :
    (base.pd.lastLevel = true ∧ Instr.edge false ≠ .pdread ∧ ∃ t t', exec (.edge false) base = .next t ∧
      exec (.edge false) { base with pd := { base.pd with fallTs := 7 } } = .next t') ∧
    ((pdAt false 1000 0 0 61000).pd.count = 0 ∧ Instr.edge true ≠ .pdread ∧
      ∃ t t', exec (.edge true) (pdAt false 1000 0 0 61000) = .next t ∧
        exec (.edge true) { pdAt false 1000 0 0 61000 with pd := { (pdAt false 1000 0 0 61000).pd with lastPulseTs := 7 } }
          = .next t') :=
  ⟨⟨rfl, by decide, _, _, rfl, rfl⟩, ⟨rfl, by decide, _, _, rfl, rfl⟩⟩
theorem witness_StaleHandoffRegistersAreNotRead :
    (base.ho.mbFull = false ∧ Instr.enqueue 1 2 ≠ .pbread ∧ ∃ t t', exec (.enqueue 1 2) base = .next t ∧
      exec (.enqueue 1 2) { base with ho := { base.ho with mbAddr := 7, mbCount := 8 } } = .next t') ∧
    (Instr.start 1 2 3 ≠ .pbcur ∧ ∃ t t', exec (.start 1 2 3) base = .next t ∧
      exec (.start 1 2 3) { base with ho := { base.ho with curAddr := 7, curCount := 8 } } = .next t') ∧
    (Instr.stop ≠ .swap ∧ Instr.stop ≠ .pbread ∧ ∃ t t', exec .stop base = .next t ∧
      exec .stop { base with ho := { base.ho with fillSel := true } } = .next t') :=
  ⟨⟨rfl, by decide, _, _, rfl, rfl⟩, ⟨by decide, _, _, rfl, rfl⟩, ⟨by decide, by decide, _, _, rfl, rfl⟩⟩
/-- P5: a fall before and a rise after the wrap; and the longest difference that fits. -/
theorem witness_TimeDifferenceIsElapsedTime :
    0xFFFF0000 ≤ 0x100005000 ∧ 0 ≤ 2 ^ 32 - 1 ∧ elapsedFits 0 (2 ^ 32 - 1) = true ∧ 0 ≤ 2 ^ 32
    ∧ elapsedFits 0 (2 ^ 32) = false := by decide
/-- Low periods below, in and above the window: V16 and V17 have none that is valid, or two. -/
theorem witness_CountIsTheNumberOfValidLowPeriods :
    lowDurations true 0 [(false, 0), (true, 35000), (false, 35000), (true, 70000)] = [35000, 35000]
    ∧ lowDurations true 0 [(false, 0), (true, 25000), (false, 25000), (true, 50000)] = [25000, 25000] := by decide
/-- S2's first two pulses and a POLL at IDT + 1 after the last rise. -/
theorem witness_PulsesThenPauseGiveOneDigit :
    let ps : List (Tick × Tick) := [(0, 60000)]
    let last : Tick × Tick := (100000, 190000)
    base.pd.count = 0 ∧ base.pd.lastLevel = true ∧ ps.length < 255
    ∧ (∀ p ∈ ps ++ [last], base.params.pwMin ≤ p.2 - p.1 ∧ p.2 - p.1 ≤ base.params.pwMax)
    ∧ base.params.idt < 390001 - last.2 := by
  refine ⟨rfl, rfl, by decide, ?_, by decide⟩
  intro p hp
  rcases List.mem_append.mp hp with h | h <;> rw [List.mem_singleton.mp h] <;> decide
theorem witness_EmptyWindowCountsNothing :
    let s : State := { pdAt false 0 2 0 60000 with params := { params with pwMax := 29999 } }
    s.params.pwMax < s.params.pwMin ∧ ∃ t, exec (.edge true) s = .next t := ⟨by decide, _, rfl⟩
/-- S4 with a READY before, between and after. -/
theorem witness_OnlyTheLastEnqueueIsDelivered :
    let s := hoAt true false false 0 0 0x2000102C 1002 false
    let before : List Event := [⟨.ready, 0, true⟩, ⟨.enqueue 0x20001800 1024, 0, true⟩]
    let later : List Event := [⟨.ready, 0, true⟩]
    s.ho.playing = true ∧ s.ho.stop = false ∧ (Event.mk (.enqueue 0x20001800 512) 0 true).op = .enqueue 0x20001800 512
    ∧ (∀ e ∈ before ++ later, e.op ≠ .complete ∧ e.op ≠ .stop ∧ ∀ r a m, e.op ≠ .start r a m)
    ∧ (∀ e ∈ later, ∀ a m, e.op ≠ .enqueue a m) := by
  refine ⟨rfl, rfl, rfl, ?_, ?_⟩ <;> simp
theorem witness_ReadyFollowsTheMailbox :
    base.cfgOk = true ∧ base.ho.stop = false ∧ (Event.mk .ready 0 true).op = .ready
    ∧ (∀ e ∈ [Event.mk .stop 0 true, Event.mk .swap 0 true], e.op ≠ .complete ∧ ∀ q a m, e.op ≠ .start q a m)
    ∧ (let s := hoAt true false true 1 2 3 4 false
       s.ho.playing = true ∧ s.ho.stop = false ∧ s.ho.mbFull = true) := by
  refine ⟨rfl, rfl, rfl, ?_, rfl, rfl, rfl⟩
  simp
/-- P4, steps 3 to 9: a stranded command and a START that fails. -/
theorem witness_OnlyStartResumesPlayback :
    base.ho.playing = false ∧
    (∀ e ∈ [Event.mk (.enqueue 1 2) 0 true, ⟨.complete, 0, true⟩, ⟨.start 1 2 3, 0, false⟩], ∀ rate addr n,
      e.op = .start rate addr n → e.cfgOk = false) := by
  refine ⟨rfl, ?_⟩
  simp
/-- Each clause of the lending rule at the last byte of a region and at the first byte past it. -/
theorem witness_LendingFollowsTheOperations :
    inRegion 0x20001000 4 0x20001007 = true ∧ inRegion 0x20001000 4 0x20001008 = false
    ∧ (∃ t, exec .complete (hoAt true false true 0x20001800 4 0x20001000 4 false) = .next t ∧ t.ho.lends 0x20001807 = true) ∧
    (∃ t, exec .stop (hoAt true false true 0x20001800 4 0x20001000 4 false) = .next t ∧ t.ho.lends 0x20001807 = false) ∧
    (∃ t, exec (.enqueue 0x20001800 4) (hoAt true false false 0 0 0x20001000 4 false) = .next t
      ∧ t.ho.lends 0x20001800 = true) ∧
    (∃ t, exec (.start 1 0x20001800 4) base = .next t ∧ t.ho.lends 0x20001808 = false) ∧
    (∃ t, exec .swap (hoAt true false false 0 0 0x20001000 4 false) = .next t ∧ t.ho.lends 0x20001000 = true) :=
  ⟨rfl, rfl, ⟨_, rfl, rfl⟩, ⟨_, rfl, rfl⟩, ⟨_, rfl, rfl⟩, ⟨_, rfl, rfl⟩, ⟨_, rfl, rfl⟩⟩
/-- P2, steps 1 to 4: a region that ends at the last byte of its Chunk. -/
theorem witness_SwapDisciplineFreesTheFillChunk :
    base.params.wf = true ∧ base.cfgOk = true ∧ hostDuty base (.start 44100 0x2000102C 1002) = true ∧
    (let s := hoAt true false false 0 0 0x2000102C 1002 false
     hostDuty s .swap = true ∧ regionInChunk s.params s.ho.fillSel s.ho.curAddr s.ho.curCount = true ∧
     inChunk s.params (!s.ho.fillSel) 0x20001800 = true ∧
     hostDuty { s with ho := { s.ho with fillSel := true } } (.enqueue 0x20001800 1024) = true) := by decide

end Sys2Proof.Tests
end

section
/-! PROOFS of the family 10_state: the status images (R36), the reset state (R40) and the reset input (R41). -/

namespace Sys2Proof.Machine

/-- `PD_STAT` as a number (R36). -/
theorem PulseState.status_toNat (p : PulseState) :
    p.status.toNat = p.count.toNat + 256 * (if p.lastLevel then 1 else 0) := by
  simp only [PulseState.status, toNat_concat, BitVec.toNat_ofBool, Bool.toNat, Bool.cond_eq_ite, BitVec.toNat_ofNat]
  omega

/-- `HO_STAT` as a number, the derived flag `ready` among its bits (R36). -/
theorem Handoff.status_toNat (h : Handoff) :
    h.status.toNat = (if h.playing then 1 else 0) + 2 * (if h.stop then 1 else 0) + 4 * (if h.mbFull then 1 else 0)
      + 8 * (if h.ready then 1 else 0) + 16 * (if h.fillSel then 1 else 0) := by
  simp only [Handoff.status, toNat_concat, BitVec.toNat_ofBool, Bool.toNat, Bool.cond_eq_ite, BitVec.toNat_ofNat]
  omega

/-- With `rst` asserted an instant offers the reset, and nothing of it stays to come (R41, log 8). -/
theorem Instant.accept_rst (p : Instant) (hr : p.rst = true) : p.accept = (.reset, none) := by
  simp [Instant.accept, hr]

/-- A step on an instant with `rst` asserted samples the pins and resets the registers (R41). -/
theorem step_rst (s : State) (p : Instant) (rest : List Instant) (hs : s.inputs = p :: rest) (hr : p.rst = true) :
    step s = .next (s.sample p.now p.cfgOk rest).resetRegisters := by
  apply step_reset
  rw [accept_cons s p rest hs, p.accept_rst hr]
  rfl

/-- An operation of PD leaves the handoff registers and port O as they are, any other leaves PulseState (R100, R120). -/
theorem exec_subBlock_frame (i : Instr) (s t : State) (h : exec i s = .next t) :
    (isPdOp i = true → t.ho = s.ho ∧ t.portO = s.portO) ∧ (isPdOp i = false → t.pd = s.pd) := by
  obtain ⟨rfl, rfl⟩ | ⟨rfl, -, rfl⟩ | ⟨rfl, -, rfl⟩ | ⟨rfl, rfl⟩ | ⟨_, _, _, rfl, -, rfl⟩ | ⟨_, _, _, rfl, -, rfl⟩ |
    ⟨rfl, rfl⟩ | ⟨_, _, rfl, -, rfl⟩ | ⟨_, _, rfl, -, rfl⟩ | ⟨rfl, rfl⟩ | ⟨rfl, rfl⟩ | ⟨rfl, rfl⟩ | ⟨rfl, rfl⟩ |
    ⟨_, rfl, rfl⟩ | ⟨rfl, -, -, rfl⟩ | ⟨rfl, -, -, rfl⟩ | ⟨rfl, -, rfl⟩ := exec_cases i s t h
  all_goals simp [isPdOp]

/-- Settles O7: the two images as numbers, and `ready` by its three clauses (R35). -/
theorem statusImagesShowTheRegisters : Obligations.StatusImagesShowTheRegisters := by
  refine ⟨PulseState.status_toNat, fun h => ?_⟩
  rw [h.status_toNat]
  simp only [ready_iff, Bool.not_eq_true]

/-- Settles O8: R40 gives each value, so the reset state evaluates to it. -/
theorem resetLeavesTheIdleBlock : Obligations.ResetLeavesTheIdleBlock := by
  unfold Obligations.ResetLeavesTheIdleBlock
  decide

/-- Settles O9: a step with `rst` is the reset of the registers; an operation of PD leaves the handoff registers and any
other operation leaves PulseState. -/
theorem resetInputRestoresTheRegisters : Obligations.ResetInputRestoresTheRegisters := by
  constructor
  · intro s p rest hs hr
    exact ⟨_, step_rst s p rest hs hr, rfl, rfl, rfl, rfl, rfl⟩
  · intro i s t h
    obtain ⟨pdOp, otherOp⟩ := exec_subBlock_frame i s t h
    cases hi : isPdOp i with
    | true => exact .inl (pdOp hi).1
    | false =>
      right
      rw [otherOp hi]

end Sys2Proof.Machine
end

section
/-! PROOFS of the family 30_encoding: the operation map (R78), the illegal command (R79, R144), the host response word
(R73) and the output command word (R74). -/

namespace Sys2Proof

/-- The operands of a host command as numbers (R71, R72). -/
theorem addrField_eq (hc : Word128) : addrField hc = BitVec.ofNat 32 (hc.toNat / 2 ^ 32) := by
  rw [addrField, BitVec.extractLsb', Nat.shiftRight_eq_div_pow]

theorem countField_eq (hc : Word128) : countField hc = BitVec.ofNat 32 (hc.toNat / 2 ^ 64) := by
  rw [countField, BitVec.extractLsb', Nat.shiftRight_eq_div_pow]

theorem rateField_eq (hc : Word128) : rateField hc = BitVec.ofNat 32 (hc.toNat / 2 ^ 96) := by
  rw [rateField, BitVec.extractLsb', Nat.shiftRight_eq_div_pow]

/-- The reserved bits `hc[31:4]` as a number (R71). -/
theorem rsvField_toNat (hc : Word128) : (rsvField hc).toNat = hc.toNat % 2 ^ 32 / 16 := by
  simp only [rsvField, BitVec.extractLsb'_toNat, Nat.shiftRight_eq_div_pow]
  omega

/-- A host command decodes as the word of its control lane `low` under its three operands: with `low` a numeral,
`decodeHost_lanes` then reads off the row (R78). -/
theorem decodeHost_of_low (hc : Word128) (low : Nat) (h : hc.toNat % 2 ^ 32 = low) :
    decodeHost hc = decodeHost (lanes (rateField hc) (countField hc) (addrField hc) (BitVec.ofNat 32 low)) := by
  have ctl : hc.extractLsb' 0 32 = BitVec.ofNat 32 low := by
    apply BitVec.eq_of_toNat_eq
    rw [BitVec.extractLsb'_toNat, Nat.shiftRight_zero, BitVec.toNat_ofNat, ← h, Nat.mod_mod]
  rw [← ctl, ← lanes_fields]

/-- A host command with a bit of `hc[31:4]` set is illegal whatever its `op` (R79). -/
theorem decodeHost_reservedBits (hc : Word128) (h : hc.toNat % 2 ^ 32 / 16 ≠ 0) :
    decodeHost hc = .illegal .reservedBits := by
  have rsv : rsvField hc ≠ 0#28 := by
    intro zero
    rw [← rsvField_toNat, zero] at h
    exact h rfl
  rw [decodeHost, if_pos rsv]

/-- A host command with `hc[31:4] = 0` and a reserved `op` is illegal (R79). -/
theorem decodeHost_reservedOp (hc : Word128) (h : hc.toNat % 2 ^ 32 ∈ [0x3, 0xB, 0xC, 0xD, 0xE, 0xF]) :
    decodeHost hc = .illegal .reservedOp := by
  rw [decodeHost_of_low hc _ rfl, decodeHost_lanes]
  generalize hc.toNat % 2 ^ 32 = low at h
  fin_cases h <;> rfl

/-- The illegal host commands (R79). -/
theorem decodeHost_illegal (hc : Word128)
    (h : hc.toNat % 16 ∈ [0x3, 0xB, 0xC, 0xD, 0xE, 0xF] ∨ hc.toNat % 2 ^ 32 / 16 ≠ 0) :
    ∃ why, decode (.h hc) = .illegal why := by
  by_cases rsv : hc.toNat % 2 ^ 32 / 16 = 0
  · have low : hc.toNat % 16 = hc.toNat % 2 ^ 32 := by omega
    rw [low] at h
    exact ⟨_, decodeHost_reservedOp hc (h.resolve_right (not_not_intro rsv))⟩
  · exact ⟨_, decodeHost_reservedBits hc rsv⟩

/-- Settles O2: each row of the map is `decodeHost_lanes` at its control lane; a control lane in no row has a reserved `op`
or a reserved bit set. -/
theorem portsDecodeByTheOperationMap : Obligations.PortsDecodeByTheOperationMap := by
  refine ⟨fun hc => ?_, by decide, by decide⟩
  simp only [← addrField_eq, ← countField_eq, ← rateField_eq]
  refine ⟨?nop, ?poll, ?pdread, ?start, ?ready, ?enqueue, ?stop, ?swap, ?pbread, ?pbcur, ?noRow⟩
  case noRow =>
    intro noRow
    apply decodeHost_illegal
    simp only [List.mem_cons, List.not_mem_nil, or_false] at noRow ⊢
    omega
  all_goals
    intro low
    rw [decode, decodeHost_of_low hc _ low, decodeHost_lanes]
    rfl

end Sys2Proof

namespace Sys2Proof.Machine

/-- The host response word as a number (R73). -/
theorem Response.word_toNat (r : Response) : r.word.toNat =
    r.code.bits.toNat + 16 * (if r.v then 1 else 0) + 2 ^ 32 * r.d0.toNat + 2 ^ 64 * r.d1.toNat
      + 2 ^ 96 * r.d2.toNat := by
  simp only [Response.word, lanes_toNat, toNat_concat, BitVec.toNat_ofBool, Bool.toNat, Bool.cond_eq_ite,
    BitVec.toNat_ofNat]
  omega

/-- A host operation returns one response, an operation of port E or C none (R73). -/
theorem exec_responses (i : Instr) (s t : State) (h : exec i s = .next t) :
    (i.agent = .host → ∃ r, t.responses = s.responses ++ [r]) ∧
    (i.agent ≠ .host → t.responses = s.responses) := by
  obtain ⟨rfl, rfl⟩ | ⟨rfl, -, rfl⟩ | ⟨rfl, -, rfl⟩ | ⟨rfl, rfl⟩ | ⟨_, _, _, rfl, -, rfl⟩ | ⟨_, _, _, rfl, -, rfl⟩ |
    ⟨rfl, rfl⟩ | ⟨_, _, rfl, -, rfl⟩ | ⟨_, _, rfl, -, rfl⟩ | ⟨rfl, rfl⟩ | ⟨rfl, rfl⟩ | ⟨rfl, rfl⟩ | ⟨rfl, rfl⟩ |
    ⟨_, rfl, rfl⟩ | ⟨rfl, -, -, rfl⟩ | ⟨rfl, -, -, rfl⟩ | ⟨rfl, -, rfl⟩ := exec_cases i s t h
  all_goals simp [Instr.agent]

/-- A step on an instant that presents only an illegal host command samples the pins and raises ERR_ILLEGAL (R144). -/
theorem step_illegal_host (s : State) (p : Instant) (rest : List Instant) (hc : Word128) (why : IllegalCommand)
    (hs : s.inputs = p :: rest) (hr : p.rst = false) (he : p.ew.getLsbD 1 = false) (hcw : p.cw.getLsbD 0 = false)
    (hh : p.hc = some hc) (hd : decode (.h hc) = .illegal why) :
    step s = .next ((s.sample p.now p.cfgOk rest).raise .errIllegal) := by
  have offered : p.accept = (.illegal why, none) := by
    rw [instant_accept_host p hc hr he hcw hh, show decodeHost hc = _ from hd, offerOf]
  rw [step_illegal s why, execIllegal_eq]
  rw [accept_cons s p rest hs, offered]
  rfl

/-- Settles O5: the word as a number, one response for each operation by its agent, and the answer to an illegal
command. -/
theorem responseWordAndOnePerHostCommand : Obligations.ResponseWordAndOnePerHostCommand := by
  refine ⟨fun r => ?word, fun i s t h => ?operation, fun s p rest hc why hs hr he hcw hh hd => ?illegal⟩
  case word =>
    rw [r.word_toNat]
    cases r.code <;> rfl
  case operation =>
    obtain ⟨host, event⟩ := exec_responses i s t h
    split_ifs with agent
    · exact host agent
    · exact event agent
  case illegal =>
    exact ⟨_, _, step_illegal_host s p rest hc why hs hr he (by rw [hcw]; rfl) hh hd, rfl⟩

/-- Settles O6: a word built from lanes as a number, its lanes those of the command. -/
theorem outputCommandWordFields : Obligations.OutputCommandWordFields := fun rate src len =>
  ⟨lanes_toNat rate len src 1, lanes_toNat 0 len src 2, rfl⟩

/-- Settles O11: such a command decodes as illegal, and raising ERR_ILLEGAL adds the response and nothing else. -/
theorem illegalCommandAnswersErrIllegal : Obligations.IllegalCommandAnswersErrIllegal := by
  intro s p rest hc hs hr he hcw hh reserved
  obtain ⟨why, hd⟩ := decodeHost_illegal hc reserved
  exact ⟨_, step_illegal_host s p rest hc why hs hr he (by rw [hcw]; rfl) hh hd, rfl, rfl, rfl, rfl, rfl⟩

end Sys2Proof.Machine
end

section
/-! PROOFS of the family 40_pulse_decoder: the modular time difference (R103), EDGE (R101) and POLL (R102). -/

namespace Sys2Proof.Machine

/-- A duration lies outside the window (R104). -/
theorem inWindow_eq_false_iff (p : Params) (d : Tick) :
    inWindow p d = false ↔ d.toNat < p.pwMin.toNat ∨ p.pwMax.toNat < d.toNat := by
  rw [← Bool.not_eq_true, inWindow_iff]
  omega

/-- Every notification leaves the level it reports as the last observed one (R101). -/
@[simp] theorem edgeUpdate_lastLevel (p : Params) (t : Tick) (lvl : Bool) (pd : PulseState) :
    (edgeUpdate p t lvl pd).lastLevel = lvl := rfl

/-- A POLL finds a completed digit: the two conditions as numbers (R102). -/
theorem digitDone_iff_toNat (p : Params) (t : Tick) (pd : PulseState) :
    digitDone p t pd = true ↔ pd.count.toNat ≠ 0 ∧ p.idt.toNat < (elapsed t pd.lastPulseTs).toNat := by
  rw [digitDone_iff, pastTimeout_iff, ne_eq, BitVec.toNat_eq]
  rfl

/-- A POLL finds no completed digit: the counter is empty or the pause too short (R102). -/
theorem digitDone_eq_false_iff (p : Params) (t : Tick) (pd : PulseState) :
    digitDone p t pd = false ↔ pd.count.toNat = 0 ∨ (elapsed t pd.lastPulseTs).toNat ≤ p.idt.toNat := by
  rw [← Bool.not_eq_true, digitDone_iff_toNat]
  omega

/-- The difference of two samples of one counter is the elapsed time modulo 2^32 (R103). -/
theorem elapsed_ofNat_toNat (later earlier : Nat) (h : earlier ≤ later) :
    (elapsed (BitVec.ofNat 32 later) (BitVec.ofNat 32 earlier)).toNat = (later - earlier) % 2 ^ 32 := by
  rw [elapsed_toNat, BitVec.toNat_ofNat, BitVec.toNat_ofNat]
  omega

/-- Settles O44: a remainder modulo 2^32 is the number itself exactly below 2^32. -/
theorem timeDifferenceIsElapsedTime : Obligations.TimeDifferenceIsElapsedTime := by
  refine ⟨fun a b => ?words, fun later earlier h => ?samples, rfl⟩
  case words =>
    rw [elapsed_toNat]
    omega
  case samples =>
    rw [elapsed_ofNat_toNat later earlier h]
    exact ⟨rfl, Nat.mod_eq_iff_lt (by decide)⟩

/-- Settles O22: EDGE is `edgeUpdate`; a fall, a pulse, a noise rise and an unchanged level are its four cases. -/
theorem edgeClassifiesAndCounts : Obligations.EdgeClassifiesAndCounts := by
  refine ⟨by decide, fun lvl s => ⟨_, exec_edge s lvl, rfl, ?level, ?fall, ?rise, ?same⟩⟩
  all_goals rw [State.withPd_pd]
  case level => exact edgeUpdate_lastLevel ..
  case fall =>
    rintro high rfl
    rw [edgeUpdate_fall _ _ _ high]
    exact ⟨rfl, rfl, rfl⟩
  case rise =>
    rintro low rfl
    rw [← elapsed_toNat]
    dsimp only
    rw [← inWindow_iff, ← inWindow_eq_false_iff]
    cases window : inWindow s.params (elapsed s.now s.pd.fallTs) with
    | true =>
      rw [edgeUpdate_pulse _ _ _ low window]
      exact ⟨rfl, fun _ => ⟨satInc_toNat _, rfl⟩, nofun⟩
    | false =>
      rw [edgeUpdate_noise _ _ _ low window]
      exact ⟨rfl, nofun, fun _ => ⟨rfl, rfl⟩⟩
  case same =>
    rintro rfl
    exact edgeUpdate_same ..

/-- Settles O23: the two cases are `digitDone` and its negation, and POLL answers each as R102 writes it. -/
theorem pollEmitsTheCountAfterThePause : Obligations.PollEmitsTheCountAfterThePause := by
  refine ⟨fun r n a => ?decodes, fun s => ?answers⟩
  case decodes =>
    rw [decode, decodeHost_lanes]
    rfl
  case answers =>
    rw [← elapsed_toNat]
    dsimp only
    rw [← digitDone_iff_toNat, ← digitDone_eq_false_iff, ← zext32_eq]
    exact ⟨exec_poll_digit s, exec_poll_none s⟩

end Sys2Proof.Machine
end

section
/-! PROOFS of the family 41_handoff: START (R121), READY (R122, R130), ENQUEUE (R123), STOP (R124), COMPLETE (R125), SWAP
(R126) and the transition table of the engine (R127). -/

namespace Sys2Proof.Machine

/-- Every operation answers a next state (R197): each branch of each arm of `exec` is a next state. -/
theorem exec_defined (i : Instr) (s : State) : ∃ t, exec i s = .next t := by
  cases i with
  | poll =>
    cases digit : digitDone s.params s.now s.pd with
    | true => exact ⟨_, exec_poll_digit s digit⟩
    | false => exact ⟨_, exec_poll_none s digit⟩
  | start rate addr n =>
    cases ok : s.cfgOk with
    | true => exact ⟨_, exec_start_ok s rate addr n ok⟩
    | false => exact ⟨_, exec_start_fail s rate addr n ok⟩
  | enqueue addr n =>
    cases stop : s.ho.stop with
    | true => exact ⟨_, exec_enqueue_stopped s addr n stop⟩
    | false => exact ⟨_, exec_enqueue_ok s addr n stop⟩
  | complete =>
    cases playing : s.ho.playing with
    | false => exact ⟨_, exec_complete_idle s playing⟩
    | true =>
      cases full : s.ho.mbFull with
      | true => exact ⟨_, exec_complete_retarget s playing full⟩
      | false => exact ⟨_, exec_complete_drain s playing full⟩
  | _ => exact ⟨_, rfl⟩

/-- START, ENQUEUE, STOP and COMPLETE are the only operations that write a handoff register other than `fill_sel` or emit a
command (R120, R127). -/
theorem exec_handoff_frame (i : Instr) (s t : State) (h : exec i s = .next t) (hstop : i ≠ .stop)
    (hcomplete : i ≠ .complete) (hstart : ∀ rate addr n, i ≠ .start rate addr n)
    (henqueue : ∀ addr n, i ≠ .enqueue addr n) :
    (∃ f, t.ho = { s.ho with fillSel := f }) ∧ t.portO = s.portO := by
  cases i with
  | start rate addr n => exact absurd rfl (hstart rate addr n)
  | enqueue addr n => exact absurd rfl (henqueue addr n)
  | stop => exact absurd rfl hstop
  | complete => exact absurd rfl hcomplete
  | poll =>
    obtain ⟨ho, portO⟩ := (exec_subBlock_frame .poll s t h).1 rfl
    exact ⟨⟨s.ho.fillSel, ho⟩, portO⟩
  | _ =>
    cases h
    exact ⟨⟨_, rfl⟩, rfl⟩

@[simp] theorem Handoff.engine_of_playing (h : Handoff) (hp : h.playing = true) : h.engine = .playing := by
  rw [Handoff.engine, if_pos hp]

@[simp] theorem Handoff.engine_of_idle (h : Handoff) (hp : h.playing = false) (hs : h.stop = false) :
    h.engine = .idle := by
  rw [Handoff.engine, hp, hs]
  rfl

@[simp] theorem Handoff.engine_of_idleStopped (h : Handoff) (hp : h.playing = false) (hs : h.stop = true) :
    h.engine = .idleStopped := by
  rw [Handoff.engine, hp, hs]
  rfl

/-- A full mailbox stays full until a COMPLETE takes it or a START empties it (R27). -/
theorem exec_keeps_mbFull (i : Instr) (s t : State) (h : exec i s = .next t) (hcomplete : i ≠ .complete)
    (hstart : ∀ rate addr n, i ≠ .start rate addr n) (full : s.ho.mbFull = true) : t.ho.mbFull = true := by
  cases i with
  | start rate addr n => exact absurd rfl (hstart rate addr n)
  | complete => exact absurd rfl hcomplete
  | stop =>
    cases h
    exact full
  | enqueue addr n =>
    cases stop : s.ho.stop with
    | true =>
      rw [exec_enqueue_stopped s addr n stop] at h
      cases h
      exact full
    | false =>
      rw [exec_enqueue_ok s addr n stop] at h
      cases h
      rfl
  | _ =>
    obtain ⟨⟨f, ho⟩, -⟩ := exec_handoff_frame _ s t h nofun nofun nofun nofun
    rw [ho]
    exact full

/-- An event is its operation, executed with the event's own inputs sampled (R9). -/
theorem execEvent_eq (e : Event) (s : State) : execEvent e s = exec e.op (s.sample e.t e.cfgOk s.inputs) := rfl

/-- A READY event answers the flag `ready` of the registers it finds (R122). -/
theorem execEvent_ready (e : Event) (s : State) (h : e.op = .ready) :
    execEvent e s = .next ((s.sample e.t e.cfgOk s.inputs).respond (Response.answer s.ho.ready)) := by
  rw [execEvent_eq, h, exec_ready, State.sample_ho]

/-- A property that each event of a run keeps holds at the end of the run, and the run has an end. -/
theorem execAll_keeps (P : State → Prop) (es : List Event) (s : State)
    (keeps : ∀ e ∈ es, ∀ s t, execEvent e s = .next t → P s → P t) (hs : P s) :
    ∃ t, execAll es s = .next t ∧ P t := by
  induction es generalizing s with
  | nil => exact ⟨s, rfl, hs⟩
  | cons e es ih =>
    obtain ⟨u, run⟩ := exec_defined e.op (s.sample e.t e.cfgOk s.inputs)
    rw [execAll_cons e es s u run]
    exact ih u (fun e' he' => keeps e' (List.mem_cons_of_mem e he')) (keeps e List.mem_cons_self s u run hs)

/-- Settles O21: START, STOP, ENQUEUE and COMPLETE by their branches, which R39(a) ties to the table's three engine
states; the other operations stay in their state. -/
theorem engineFollowsTheTransitionTable : Obligations.EngineFollowsTheTransitionTable := by
  intro i s excl
  obtain ⟨t, run⟩ := exec_defined i s
  cases i with
  | start rate addr n =>
    cases ok : s.cfgOk with
    | true => exact ⟨_, [_], exec_start_ok s rate addr n ok, rfl, rfl, nofun⟩
    | false => exact ⟨_, [_], exec_start_fail s rate addr n ok, rfl, rfl, excl⟩
  | stop => exact ⟨_, [_], exec_stop s, rfl, rfl, nofun⟩
  | enqueue addr n =>
    cases stop : s.ho.stop with
    | true =>
      have idle : s.ho.playing = false := by simpa [stop] using excl
      refine ⟨_, [], exec_enqueue_stopped s addr n stop, (List.append_nil _).symm, ?_, excl⟩
      simp [idle, stop, transition]
    | false =>
      refine ⟨_, [], exec_enqueue_ok s addr n stop, (List.append_nil _).symm, ?_, excl⟩
      cases playing : s.ho.playing <;> simp [playing, stop, transition]
  | complete =>
    cases playing : s.ho.playing with
    | false =>
      refine ⟨_, [], exec_complete_idle s playing, (List.append_nil _).symm, ?_, excl⟩
      cases stop : s.ho.stop <;> simp [playing, stop, transition]
    | true =>
      have running : s.ho.stop = false := by simpa [playing] using excl
      cases full : s.ho.mbFull with
      | true =>
        refine ⟨_, [_], exec_complete_retarget s playing full, rfl, ?_, excl⟩
        simp [playing, transition, OutCmd.kind]
      | false =>
        have drained : (s.ho.clearMailbox.setPlaying false).engine = .idle := Handoff.engine_of_idle _ rfl running
        refine ⟨_, [_], exec_complete_drain s playing full, rfl, ?_, nofun⟩
        simp [playing, drained, transition, OutCmd.kind]
  | _ =>
    obtain ⟨⟨f, ho⟩, portO⟩ := exec_handoff_frame _ s t run nofun nofun nofun nofun
    refine ⟨t, [], run, by rw [portO, List.append_nil], ?_⟩
    rw [ho]
    exact ⟨rfl, excl⟩

/-- Settles O24: the two answers of the output device are the two branches of START. -/
theorem startBeginsPlayingOrFailsWhole : Obligations.StartBeginsPlayingOrFailsWhole :=
  ⟨fun rate addr n => decodeHost_lanes rate n addr 0x4,
    fun rate addr n s => ⟨exec_start_ok s rate addr n, exec_start_fail s rate addr n⟩⟩

/-- Settles O26: the two values of `stop` are the two branches of ENQUEUE. -/
theorem enqueueInstallsUnlessStopped : Obligations.EnqueueInstallsUnlessStopped := by
  refine ⟨fun r addr n => decodeHost_lanes r n addr 0x6, fun addr n s => ⟨fun stop => ?installs, fun stop => ?stopped⟩⟩
  case installs =>
    rw [exec_enqueue_ok s addr n stop, Handoff.install, stop]
    rfl
  case stopped => exact exec_enqueue_stopped s addr n stop

/-- Settles O28: an engine that retargets, one that drains and an Idle one are the three branches of COMPLETE. -/
theorem completeTakesTheMailbox : Obligations.CompleteTakesTheMailbox := by
  refine ⟨rfl, fun s => ⟨fun playing full => ?retargets, fun playing full => ?drains, fun idle => ?idle⟩⟩
  case retargets =>
    rw [exec_complete_retarget s playing full, Handoff.clearMailbox, playing]
    rfl
  case drains => exact exec_complete_drain s playing full
  case idle =>
    rw [exec_complete_idle s idle, Handoff.clearMailbox, idle]
    rfl

/-- Settles O49: the mailbox is empty after START and after COMPLETE, and an ENQUEUE fills it until one of the two comes;
READY answers the flag `ready` of those registers. -/
theorem readyFollowsTheMailbox : Obligations.ReadyFollowsTheMailbox := by
  refine ⟨fun s rate addr n r ok hr => ?afterStart, fun s es addr n r stop hr others => ?whileFull,
    fun s r playing stop full hr => ?afterComplete⟩
  case afterStart =>
    exact ⟨_, _, exec_start_ok s rate addr n ok, execEvent_ready r _ hr, rfl⟩
  case whileFull =>
    obtain ⟨u, run, full⟩ := execAll_keeps (·.ho.mbFull = true) es
      ((s.withHo (s.ho.install addr n)).respond (Response.answer false))
      (fun e he s t step => exec_keeps_mbFull e.op (s.sample e.t e.cfgOk s.inputs) t step
        (others e he).1 (others e he).2) rfl
    have notReady : u.ho.ready = false := by simp [Handoff.ready, full]
    refine ⟨_, u, _, exec_enqueue_ok s addr n stop, run, execEvent_ready r u hr, ?_⟩
    rw [notReady]
    rfl
  case afterComplete =>
    refine ⟨_, _, exec_complete_retarget s playing full, execEvent_ready r _ hr, ?_⟩
    have ready : (s.ho.clearMailbox.setShadow s.ho.mbAddr s.ho.mbCount).ready = true :=
      (ready_iff _).mpr ⟨playing, stop, rfl⟩
    simp [ready, Response.answer]

/-- Settles O25: READY answers the flag `ready`. -/
theorem readyAnswersTheThreeClauses : Obligations.ReadyAnswersTheThreeClauses :=
  ⟨fun r n a => decodeHost_lanes r n a 0x5, fun s => ⟨s.ho.ready, ready_iff s.ho, exec_ready s⟩⟩

/-- Settles O27: STOP has one branch. -/
theorem stopAbortsInEveryState : Obligations.StopAbortsInEveryState :=
  ⟨fun r n a => decodeHost_lanes r n a 0x7, exec_stop⟩

/-- Settles O29: a bit differs from its complement. -/
theorem swapComplementsTheRoleBit : Obligations.SwapComplementsTheRoleBit :=
  ⟨fun r n a => decodeHost_lanes r n a 0x8, fun s => ⟨_, exec_swap s, rfl, rfl, Bool.not_ne_self _, rfl⟩⟩

end Sys2Proof.Machine
end

section
/-! PROOFS of the family 42_system: NOP (R140), PDREAD (R141), PBREAD (R142) and PBCUR (R143). -/

namespace Sys2Proof.Machine

/-- `PD_STAT` as the lane of its number (R36). -/
theorem PulseState.status_eq_ofNat (p : PulseState) :
    p.status = BitVec.ofNat 32 (p.count.toNat + 256 * (if p.lastLevel then 1 else 0)) := by
  rw [← p.status_toNat, BitVec.ofNat_toNat, BitVec.setWidth_eq]

/-- `HO_STAT` as the lane of its number, `ready` by its three clauses (R35, R36). -/
theorem Handoff.status_eq_ofNat (h : Handoff) :
    h.status = BitVec.ofNat 32 ((if h.playing then 1 else 0) + 2 * (if h.stop then 1 else 0)
      + 4 * (if h.mbFull then 1 else 0) + 8 * (if h.playing ∧ ¬h.stop ∧ ¬h.mbFull then 1 else 0)
      + 16 * (if h.fillSel then 1 else 0)) := by
  have image := h.status_toNat
  simp only [ready_iff, ← Bool.not_eq_true] at image
  rw [← image, BitVec.ofNat_toNat, BitVec.setWidth_eq]

/-- Settles O30: NOP has one branch, which only answers. -/
theorem nopOnlyAnswers : Obligations.NopOnlyAnswers :=
  ⟨fun r n a => decodeHost_lanes r n a 0x0, exec_nop⟩

/-- Settles O31: PDREAD answers the image `PD_STAT`, which is the lane of its number. -/
theorem pdreadShowsPulseState : Obligations.PdreadShowsPulseState := by
  refine ⟨fun r n a => decodeHost_lanes r n a 0x2, fun s => ?_⟩
  rw [← s.pd.status_eq_ofNat]
  exact exec_pdread s

/-- Settles O32: PBREAD answers the image `HO_STAT`, which is the lane of its number, and the pair in either case of
`mb_full`. -/
theorem pbreadShowsFlagsAndMailbox : Obligations.PbreadShowsFlagsAndMailbox := by
  refine ⟨fun r n a => decodeHost_lanes r n a 0x9, fun s => ?_⟩
  rw [← s.ho.status_eq_ofNat]
  exact exec_pbread s

/-- Settles O33: PBCUR has one branch, which answers `playing` and the shadow. -/
theorem pbcurShowsTheShadow : Obligations.PbcurShowsTheShadow :=
  ⟨fun r n a => decodeHost_lanes r n a 0xA, exec_pbcur⟩

end Sys2Proof.Machine
end

section
/-! PROOFS of the family 60_exceptions: the error answers and their causes (R150 to R154). -/

namespace Sys2Proof.Machine

@[simp] theorem Response.error_code (code : ResultCode) : (Response.error code).code = code := rfl

/-- An operation that is neither START nor ENQUEUE answers OK where it answers (R151, R152). -/
theorem exec_answers_ok (i : Instr) (s t : State) (r : Response) (h : exec i s = .next t)
    (hr : t.responses = s.responses ++ [r]) (hstart : ∀ rate addr n, i ≠ .start rate addr n)
    (henqueue : ∀ addr n, i ≠ .enqueue addr n) : r.code = .ok := by
  cases i with
  | start rate addr n => exact absurd rfl (hstart rate addr n)
  | enqueue addr n => exact absurd rfl (henqueue addr n)
  | edge _ | complete =>
    rw [(exec_responses _ s t h).2 nofun] at hr
    simp at hr
  | poll =>
    cases digit : digitDone s.params s.now s.pd with
    | true =>
      rw [exec_poll_digit s digit] at h
      cases h
      cases List.append_cancel_left hr
      rfl
    | false =>
      rw [exec_poll_none s digit] at h
      cases h
      cases List.append_cancel_left hr
      rfl
  | _ =>
    cases h
    cases List.append_cancel_left hr
    rfl

/-- What an answer can be: ERR_RESOURCE to a START that the output device refused or STOPPED to an ENQUEUE after a stop
request, each with every register as it was, or OK to an operation that is neither of the two (R151, R152). -/
theorem exec_answer_cases (i : Instr) (s t : State) (r : Response) (h : exec i s = .next t)
    (hr : t.responses = s.responses ++ [r]) :
    ((s.cfgOk = false ∧ ∃ rate addr n, i = .start rate addr n) ∧ r = Response.error .errResource ∧
      t.pd = s.pd ∧ t.ho = s.ho) ∨
    ((s.ho.stop = true ∧ ∃ addr n, i = .enqueue addr n) ∧ r = Response.error .stopped ∧ t.pd = s.pd ∧ t.ho = s.ho) ∨
    (¬(s.cfgOk = false ∧ ∃ rate addr n, i = .start rate addr n) ∧
      ¬(s.ho.stop = true ∧ ∃ addr n, i = .enqueue addr n) ∧ r.code = .ok) := by
  cases i with
  | start rate addr n =>
    cases ok : s.cfgOk with
    | false =>
      rw [exec_start_fail s rate addr n ok] at h
      cases h
      cases List.append_cancel_left hr
      exact .inl ⟨⟨rfl, _, _, _, rfl⟩, rfl, rfl, rfl⟩
    | true =>
      rw [exec_start_ok s rate addr n ok] at h
      cases h
      cases List.append_cancel_left hr
      exact .inr (.inr ⟨by simp, by simp, rfl⟩)
  | enqueue addr n =>
    cases stop : s.ho.stop with
    | true =>
      rw [exec_enqueue_stopped s addr n stop] at h
      cases h
      cases List.append_cancel_left hr
      exact .inr (.inl ⟨⟨rfl, _, _, rfl⟩, rfl, rfl, rfl⟩)
    | false =>
      rw [exec_enqueue_ok s addr n stop] at h
      cases h
      cases List.append_cancel_left hr
      exact .inr (.inr ⟨by simp, by simp, rfl⟩)
  | _ => exact .inr (.inr ⟨by simp, by simp, exec_answers_ok _ s t r h hr nofun nofun⟩)

/-- Settles O40: the three kinds of answer have three codes, none of them ERR_ILLEGAL, and the two errors come with every
other field 0. -/
theorem errorsComeFromTheirCauseAndChangeNothing : Obligations.ErrorsComeFromTheirCauseAndChangeNothing := by
  intro i s t r h hr
  obtain ⟨⟨refused, rate, addr, n, rfl⟩, rfl, pd, ho⟩ | ⟨⟨stop, addr, n, rfl⟩, rfl, pd, ho⟩ |
    ⟨notRefused, notStopped, ok⟩ := exec_answer_cases i s t r h hr
  · exact ⟨by simp, by simp [refused], nofun, fun _ => ⟨pd, ho, rfl, rfl, rfl, rfl⟩⟩
  · exact ⟨by simp [stop], by simp, nofun, fun _ => ⟨pd, ho, rfl, rfl, rfl, rfl⟩⟩
  · rw [ok]
    exact ⟨iff_of_false nofun notStopped, iff_of_false nofun notRefused, nofun, fun err => absurd rfl err⟩

end Sys2Proof.Machine
end

section
/-! PROOFS of the family other, what they share: an operation as functions of the registers and inputs it reads, and
what a step can do. -/

namespace Sys2Proof.Machine

/-- PulseState after an operation: beside itself only the parameters and the time are read for it (R100). -/
@[simp] def pdAfter (p : Params) (t : Tick) (pd : PulseState) : Instr → PulseState
  | .edge lvl => edgeUpdate p t lvl pd
  | .poll => if digitDone p t pd then pd.clearCount else pd
  | .nop | .pdread | .start _ _ _ | .ready | .enqueue _ _ | .stop | .swap | .pbread | .pbcur | .complete => pd

/-- The handoff registers after an operation: beside themselves only `cfg_ok` is read for them (R120). -/
@[simp] def hoAfter (cfgOk : Bool) (h : Handoff) : Instr → Handoff
  | .start _ addr n => if cfgOk then h.begin addr n else h
  | .enqueue addr n => if h.stop then h else h.install addr n
  | .stop => (h.setStop true).setPlaying false
  | .swap => h.swapRoles
  | .complete =>
    if h.playing then
      if h.mbFull then h.clearMailbox.setShadow h.mbAddr h.mbCount else h.clearMailbox.setPlaying false
    else h.clearMailbox
  | .nop | .poll | .pdread | .ready | .pbread | .pbcur | .edge _ => h

/-- The commands an operation emits on port O (R121, R124, R125). -/
@[simp] def emitted (h : Handoff) : Instr → List OutCmd
  | .start rate addr n => [.configureLoop rate addr n]
  | .stop => [.abort]
  | .complete => if h.playing then (if h.mbFull then [.retarget h.mbAddr h.mbCount] else [.abort]) else []
  | .nop | .poll | .pdread | .ready | .enqueue _ _ | .swap | .pbread | .pbcur | .edge _ => []

/-- The responses an operation returns (R73). -/
@[simp] def answers (s : State) : Instr → List Response
  | .nop | .stop => [Response.answer false]
  | .poll =>
    if digitDone s.params s.now s.pd then [Response.data true (zext32 s.pd.count) 0 0] else [Response.answer false]
  | .pdread => [Response.data false s.pd.status s.pd.fallTs s.pd.lastPulseTs]
  | .start _ _ _ => if s.cfgOk then [Response.answer false] else [Response.error .errResource]
  | .ready => [Response.answer s.ho.ready]
  | .enqueue _ _ => if s.ho.stop then [Response.error .stopped] else [Response.answer false]
  | .swap => [Response.answer (!s.ho.fillSel)]
  | .pbread => [Response.data false s.ho.status s.ho.mbAddr s.ho.mbCount]
  | .pbcur => [Response.data s.ho.playing s.ho.curAddr s.ho.curCount 0]
  | .edge _ | .complete => []

/-- The state after an operation. -/
def effect (i : Instr) (s : State) : State :=
  { s with
    pd := pdAfter s.params s.now s.pd i
    ho := hoAfter s.cfgOk s.ho i
    responses := s.responses ++ answers s i
    portO := s.portO ++ emitted s.ho i }

/-- An operation answers the state after its effect, whatever the state before. -/
theorem exec_eq_effect (i : Instr) (s : State) : exec i s = .next (effect i s) := by
  cases i with
  | poll =>
    cases digit : digitDone s.params s.now s.pd with
    | true =>
      rw [exec_poll_digit s digit]
      simp [effect, digit, State.respond, State.withPd]
    | false =>
      rw [exec_poll_none s digit]
      simp [effect, digit, State.respond]
  | start rate addr n =>
    cases ok : s.cfgOk with
    | true =>
      rw [exec_start_ok s rate addr n ok]
      simp [effect, ok, State.respond, State.withHo, State.emit]
    | false =>
      rw [exec_start_fail s rate addr n ok]
      simp [effect, ok, State.raise, State.respond, State.emit]
  | enqueue addr n =>
    cases stop : s.ho.stop with
    | true =>
      rw [exec_enqueue_stopped s addr n stop]
      simp [effect, stop, State.raise, State.respond]
    | false =>
      rw [exec_enqueue_ok s addr n stop]
      simp [effect, stop, State.respond, State.withHo]
  | complete =>
    cases playing : s.ho.playing with
    | false =>
      rw [exec_complete_idle s playing]
      simp [effect, playing, State.withHo]
    | true =>
      cases full : s.ho.mbFull with
      | true =>
        rw [exec_complete_retarget s playing full]
        simp [effect, playing, full, State.withHo, State.emit]
      | false =>
        rw [exec_complete_drain s playing full]
        simp [effect, playing, full, State.withHo, State.emit]
  | edge lvl =>
    rw [exec_edge]
    simp [effect, State.withPd]
  | stop => rfl
  | _ =>
    simp only [effect, emitted, List.append_nil]
    rfl

theorem eq_effect_of_exec (i : Instr) (s t : State) (h : exec i s = .next t) : t = effect i s :=
  (Host.Outcome.next.inj ((exec_eq_effect i s).symm.trans h)).symm

theorem exec_pd (i : Instr) (s t : State) (h : exec i s = .next t) : t.pd = pdAfter s.params s.now s.pd i := by
  rw [eq_effect_of_exec i s t h, effect]

theorem exec_ho (i : Instr) (s t : State) (h : exec i s = .next t) : t.ho = hoAfter s.cfgOk s.ho i := by
  rw [eq_effect_of_exec i s t h, effect]

theorem exec_portO (i : Instr) (s t : State) (h : exec i s = .next t) : t.portO = s.portO ++ emitted s.ho i := by
  rw [eq_effect_of_exec i s t h, effect]

/-- No operation reads what is still to be presented (R38). -/
theorem exec_sample_inputs (i : Instr) (s t : State) (now : Tick) (cfgOk : Bool) (ins rest : List Instant)
    (h : exec i (s.sample now cfgOk rest) = .next t) :
    exec i (s.sample now cfgOk ins) = .next { t with inputs := ins } := by
  rw [eq_effect_of_exec _ _ _ h, exec_eq_effect]
  rfl

/-- What each step can do, said once: it samples the pins and then executes an operation, resets the registers, answers
an illegal command, or changes nothing more. -/
theorem step_cases (s t : State) (h : step s = .next t) :
    ∃ s', (s'.pd = s.pd ∧ s'.ho = s.ho ∧ s'.params = s.params ∧ s'.responses = s.responses ∧ s'.portO = s.portO) ∧
      ((∃ i, s.accept = (.op i, s') ∧ exec i s' = .next t) ∨ (s.accept = (.reset, s') ∧ t = s'.resetRegisters) ∨
        (∃ why, s.accept = (.illegal why, s') ∧ t = s'.raise .errIllegal) ∨ (s.accept = (.idle, s') ∧ t = s')) := by
  cases taken : s.accept with
  | mk offer s' =>
    refine ⟨s', by rw [accept_frame s offer s' taken]; simp, ?_⟩
    cases offer with
    | op i =>
      rw [step_op s i s' taken] at h
      exact .inl ⟨i, rfl, h⟩
    | reset =>
      cases (step_reset s s' taken).symm.trans h
      exact .inr (.inl ⟨rfl, rfl⟩)
    | illegal why =>
      cases (step_illegal s why s' taken).symm.trans h
      exact .inr (.inr (.inl ⟨why, rfl, rfl⟩))
    | idle =>
      cases (step_idle s s' taken).symm.trans h
      exact .inr (.inr (.inr ⟨rfl, rfl⟩))

end Sys2Proof.Machine
end

section
/-! PROOFS of the family other: what every step keeps (R9, R39, R182, R197) and how `count` changes (R23). -/

namespace Sys2Proof.Machine

/-- Every operation keeps R39(a). -/
theorem exec_keeps_exclusive (i : Instr) (s t : State) (h : exec i s = .next t) (excl : s.ho.Exclusive) :
    t.ho.Exclusive := by
  obtain ⟨u, cs, run, -, -, kept⟩ := engineFollowsTheTransitionTable i s excl
  cases h.symm.trans run
  exact kept

/-- Settles O20: neither flag is set at reset. -/
theorem resetIsNotPlayingAndStopped : Obligations.ResetIsNotPlayingAndStopped := nofun

/-- Settles O19: an operation keeps R39(a) by the transition table of the engine, reset restores it, and a step that
executes no operation leaves the handoff registers. -/
theorem stepKeepsPlayingAndStopExclusive : Obligations.StepKeepsPlayingAndStopExclusive := by
  intro s t excl h
  obtain ⟨s', ⟨-, ho, -, -, -⟩, ⟨i, -, run⟩ | ⟨-, rfl⟩ | ⟨why, -, rfl⟩ | ⟨-, rfl⟩⟩ := step_cases s t h
  all_goals rw [← ho] at excl
  · exact exec_keeps_exclusive i s' t run excl
  · exact resetIsNotPlayingAndStopped
  · exact excl
  · exact excl

/-- Settles O16: an operation has its effect in every state, and the other steps answer by `step_reset`, `step_illegal`
and `step_idle`. -/
theorem everyStepIsDefined : Obligations.EveryStepIsDefined := by
  refine ⟨exec_defined, fun s => ?_⟩
  cases taken : s.accept with
  | mk offer s' =>
    cases offer with
    | op i =>
      rw [step_op s i s' taken]
      exact exec_defined i s'
    | reset => exact ⟨_, step_reset s s' taken⟩
    | illegal why => exact ⟨_, step_illegal s why s' taken⟩
    | idle => exact ⟨_, step_idle s s' taken⟩

theorem answers_length_le (s : State) (i : Instr) : (answers s i).length ≤ 1 := by
  cases i with
  | poll | start _ _ _ | enqueue _ _ =>
    simp only [answers]
    split <;> rfl
  | _ => simp

theorem emitted_length_le (h : Handoff) (i : Instr) : (emitted h i).length ≤ 1 := by
  cases i with
  | complete =>
    simp only [emitted]
    split_ifs <;> simp
  | _ => simp

/-- Settles O17: an operation appends its answers and its commands, an illegal command one answer, any other step
nothing. -/
theorem outputsAreOnlyAppended : Obligations.OutputsAreOnlyAppended := by
  intro s t h
  obtain ⟨s', ⟨-, -, -, responses, portO⟩, ⟨i, -, run⟩ | ⟨-, rfl⟩ | ⟨why, -, rfl⟩ | ⟨-, rfl⟩⟩ := step_cases s t h
  all_goals rw [← responses, ← portO]
  · rw [eq_effect_of_exec i s' t run]
    exact ⟨_, _, rfl, answers_length_le s' i, rfl, (emitted_length_le s'.ho i).trans one_le_two⟩
  · exact ⟨[], [], by simp⟩
  · exact ⟨[_], [], rfl, by simp⟩
  · exact ⟨[], [], by simp⟩

/-- Settles O18: neither the effect of an operation nor any other step writes the parameters. -/
theorem parametersNeverChange : Obligations.ParametersNeverChange := by
  intro s t h
  obtain ⟨s', ⟨-, -, params, -, -⟩, ⟨i, -, run⟩ | ⟨-, rfl⟩ | ⟨why, -, rfl⟩ | ⟨-, rfl⟩⟩ := step_cases s t h
  · rw [eq_effect_of_exec i s' t run]
    exact params
  · exact params
  · exact params
  · exact params

/-- The four cases of a notification: a fall, a rise that ends a pulse, a rise that is noise, an unchanged level
(R101). -/
theorem edgeUpdate_cases (p : Params) (t : Tick) (lvl : Bool) (pd : PulseState) :
    (pd.lastLevel = true ∧ lvl = false ∧ edgeUpdate p t lvl pd = (pd.recordFall t).observe false) ∨
    (pd.lastLevel = false ∧ lvl = true ∧ inWindow p (elapsed t pd.fallTs) = true ∧
      edgeUpdate p t lvl pd = (pd.recordPulse (satInc pd.count) t).observe true) ∨
    (pd.lastLevel = false ∧ lvl = true ∧ inWindow p (elapsed t pd.fallTs) = false ∧
      edgeUpdate p t lvl pd = pd.observe true) ∨
    (lvl = pd.lastLevel ∧ edgeUpdate p t lvl pd = pd) := by
  cases level : pd.lastLevel <;> cases lvl
  · exact .inr (.inr (.inr ⟨rfl, level ▸ edgeUpdate_same p t pd⟩))
  · cases window : inWindow p (elapsed t pd.fallTs) with
    | true => exact .inr (.inl ⟨rfl, rfl, rfl, edgeUpdate_pulse p t pd level window⟩)
    | false => exact .inr (.inr (.inl ⟨rfl, rfl, rfl, edgeUpdate_noise p t pd level window⟩))
  · exact .inl ⟨rfl, rfl, edgeUpdate_fall p t pd level⟩
  · exact .inr (.inr (.inr ⟨rfl, level ▸ edgeUpdate_same p t pd⟩))

/-- A notification that changes `count` adds 1 to it (R105). -/
theorem edgeUpdate_count_succ (p : Params) (t : Tick) (lvl : Bool) (pd : PulseState)
    (changed : (edgeUpdate p t lvl pd).count ≠ pd.count) :
    (edgeUpdate p t lvl pd).count.toNat = pd.count.toNat + 1 := by
  obtain ⟨-, -, upd⟩ | ⟨-, -, -, upd⟩ | ⟨-, -, -, upd⟩ | ⟨-, upd⟩ := edgeUpdate_cases p t lvl pd <;>
    rw [upd] at changed ⊢
  case inr.inl =>
    have grew : (satInc pd.count).toNat ≠ pd.count.toNat := fun e => changed (BitVec.eq_of_toNat_eq e)
    rw [satInc_toNat] at grew
    simp only [PulseState.observe_count, PulseState.recordPulse_count, satInc_toNat]
    omega
  all_goals exact absurd rfl changed

/-- An operation that changes `count` is an EDGE that adds 1, or a POLL that returns it and clears it (R23). -/
theorem exec_count_cases (i : Instr) (s t : State) (h : exec i s = .next t) (changed : t.pd.count ≠ s.pd.count) :
    (∃ lvl, i = .edge lvl ∧ t.pd.count.toNat = s.pd.count.toNat + 1) ∨
    (i = .poll ∧ t.pd.count = 0 ∧
      t.responses = s.responses ++ [⟨.ok, true, BitVec.ofNat 32 s.pd.count.toNat, 0, 0⟩]) := by
  cases i with
  | edge lvl =>
    cases h
    exact .inl ⟨lvl, rfl, edgeUpdate_count_succ _ _ _ _ changed⟩
  | poll =>
    cases digit : digitDone s.params s.now s.pd with
    | true =>
      cases (exec_poll_digit s digit).symm.trans h
      exact .inr ⟨rfl, rfl, by rw [← zext32_eq]; rfl⟩
    | false =>
      cases (exec_poll_none s digit).symm.trans h
      exact absurd rfl changed
  | _ =>
    rw [eq_effect_of_exec _ s t h] at changed
    exact absurd rfl changed

/-- Settles O39: an operation changes `count` as an EDGE or a POLL does, and no other step but reset writes it. -/
theorem countChangesOnlyAsRuled : Obligations.CountChangesOnlyAsRuled := by
  intro s t h changed
  obtain ⟨s', ⟨pd, -, -, responses, -⟩, ⟨i, taken, run⟩ | ⟨taken, rfl⟩ | ⟨why, -, rfl⟩ | ⟨-, rfl⟩⟩ := step_cases s t h
  all_goals rw [← pd] at changed ⊢
  · obtain ⟨lvl, rfl, count⟩ | ⟨rfl, count, said⟩ := exec_count_cases i s' t run changed
    · exact .inl ⟨lvl, s', taken, count⟩
    · exact .inr (.inl ⟨s', taken, count, responses ▸ said⟩)
  · exact .inr (.inr ⟨s', taken, rfl⟩)
  · exact absurd rfl changed
  · exact absurd rfl changed

/-- Settles O47: no duration lies in an empty window, so no notification is a pulse; POLL only clears. -/
theorem emptyWindowCountsNothing : Obligations.EmptyWindowCountsNothing := by
  intro i s t empty h
  cases i with
  | edge lvl =>
    cases h
    obtain ⟨-, -, upd⟩ | ⟨-, -, window, -⟩ | ⟨-, -, -, upd⟩ | ⟨-, upd⟩ := edgeUpdate_cases s.params s.t lvl s.pd
    case inr.inl =>
      rw [inWindow_iff] at window
      have := BitVec.lt_def.mp empty
      omega
    all_goals
      rw [State.withPd_pd, upd]
      exact ⟨rfl, .inl rfl⟩
  | poll =>
    cases digit : digitDone s.params s.now s.pd with
    | true =>
      cases (exec_poll_digit s digit).symm.trans h
      exact ⟨rfl, .inr rfl⟩
    | false =>
      cases (exec_poll_none s digit).symm.trans h
      exact ⟨rfl, .inl rfl⟩
  | _ =>
    rw [eq_effect_of_exec _ s t h]
    exact ⟨rfl, .inl rfl⟩

end Sys2Proof.Machine
end

section
/-! PROOFS of the family other: the decoder and its ports (R71 to R82, R164). -/

namespace Sys2Proof

/-- What a host command decodes to is an operation of the host (R164). -/
theorem decodeHost_agent (hc : Word128) (i : Instr) (h : decodeHost hc = .op i) : i.agent = .host := by
  unfold decodeHost at h
  split at h
  · cases h
  · split at h <;> cases h <;> rfl

/-- An edge word that decodes to an operation has its strobe at 1 and is an EDGE (R75). -/
theorem decodeEdge_op (ew : EdgeWord) (i : Instr) (h : decodeEdge ew = .op i) :
    ew.getLsbD 1 = true ∧ i = .edge (ew.getLsbD 0) := by
  unfold decodeEdge at h
  split at h <;> cases h
  exact ⟨‹_›, rfl⟩

/-- A completion word that decodes to an operation has its strobe at 1 and is a COMPLETE (R77). -/
theorem decodeCompletion_op (cw : CompletionWord) (i : Instr) (h : decodeCompletion cw = .op i) :
    cw.getLsbD 0 = true ∧ i = .complete := by
  unfold decodeCompletion at h
  split at h <;> cases h
  exact ⟨‹_›, rfl⟩

theorem decode_encode (i : Instr) : decode (encode i) = .op i := by
  cases i with
  | start rate addr n => exact decodeHost_lanes rate n addr 0x4
  | enqueue addr n => exact decodeHost_lanes 0 n addr 0x6
  | edge lvl => cases lvl <;> rfl
  | _ => rfl

/-- Settles O1: START and ENQUEUE take their operands from the lanes they were written to; every other word is fixed. -/
theorem decodeOfEncodeIsTheOperation : Obligations.DecodeOfEncodeIsTheOperation := decode_encode

/-- Settles O3: each decoder answers operations of its own agent only. -/
theorem portFixesWhoIssuesWhat : Obligations.PortFixesWhoIssuesWhat := by
  refine ⟨decodeHost_agent, fun ew i h => ?edge, fun cw i h => ?complete⟩
  case edge =>
    rw [(decodeEdge_op ew i h).2]
    rfl
  case complete =>
    rw [(decodeCompletion_op cw i h).2]
    rfl

/-- Settles O4: eight fixed words, decoded. -/
theorem writtenWordsDecode : Obligations.WrittenWordsDecode := by
  unfold Obligations.WrittenWordsDecode
  decide

end Sys2Proof
end

section
/-! PROOFS of the family other: what an instant presents, the order in which steps execute it (R62), and written
programs (R82). -/

namespace Sys2Proof.Machine

/-- A completion word presents nothing exactly if it is 0 (R77). -/
theorem completionStrobe_eq_false_iff : ∀ cw : CompletionWord, cw.getLsbD 0 = false ↔ cw = 0 := by decide

/-- Of an instant that presents no EDGE, or no EDGE any more, nothing remains exactly if it presents neither a COMPLETE
nor a host command. -/
theorem remainder_of_no_edge (p : Instant) (he : p.ew.getLsbD 1 = false) :
    p.remainder = if p.cw = 0 ∧ p.hc = none then none else some p := by
  have silent : p.silent = true ↔ p.cw = 0 ∧ p.hc = none := by
    rw [← completionStrobe_eq_false_iff, Instant.silent, he, ← Option.isNone_iff_eq_none]
    simp only [Bool.not_false, Bool.true_and, Bool.and_eq_true, Bool.not_eq_true']
  simp only [Instant.remainder, silent]

/-- An instant without reset whose edge word is an operation offers that operation first (R62). -/
theorem accept_edge (p : Instant) (i : Instr) (hr : p.rst = false) (he : decode (.e p.ew) = .op i) :
    p.accept = (.op i, Instant.remainder { p with ew := 0 }) := by
  unfold Instant.accept
  rw [hr, (decodeEdge_op p.ew i he).1, show decodeEdge p.ew = _ from he]
  rfl

/-- An instant that presents a COMPLETE and no EDGE offers the COMPLETE first (R62). -/
theorem accept_complete (p : Instant) (i : Instr) (hr : p.rst = false) (he : decode (.e p.ew) = .nothing)
    (hcw : decode (.c p.cw) = .op i) : p.accept = (.op i, Instant.remainder { p with cw := 0 }) := by
  unfold Instant.accept
  rw [hr, (decodeEdge_strobe p.ew).mpr he, (decodeCompletion_op p.cw i hcw).1, show decodeCompletion p.cw = _ from hcw]
  rfl

/-- An instant that presents neither event offers its host command (R62). -/
theorem accept_host (p : Instant) (hc : Word128) (i : Instr) (hr : p.rst = false) (he : decode (.e p.ew) = .nothing)
    (hcw : decode (.c p.cw) = .nothing) (hh : p.hc = some hc) (hd : decode (.h hc) = .op i) :
    p.accept = (.op i, none) := by
  rw [instant_accept_host p hc hr ((decodeEdge_strobe p.ew).mpr he) ((decodeCompletion_strobe p.cw).mpr hcw) hh]
  rw [show decodeHost hc = _ from hd, offerOf]

/-- A step executes the operation that the next instant offers, with the pins of that instant sampled. -/
theorem step_of_accept (s : State) (p : Instant) (rest : List Instant) (i : Instr) (left : Option Instant)
    (hs : s.inputs = p :: rest) (hp : p.accept = (.op i, left)) :
    step s = exec i (s.sample p.now p.cfgOk (left.toList ++ rest)) := by
  apply step_op
  rw [accept_cons s p rest hs, hp]

/-- Settles O10: the three words in the order in which an instant offers them. -/
theorem stepRunsTheDecodedOperation : Obligations.StepRunsTheDecodedOperation := by
  intro s p rest i hs hr
  refine ⟨fun he => ?edge, fun he hcw => ?complete, fun hc he hcw hh hd => ?host⟩
  case edge =>
    rw [step_of_accept s p rest i _ hs (accept_edge p i hr he), remainder_of_no_edge _ BitVec.getLsbD_zero]
    dsimp only
    split_ifs <;> rfl
  case complete =>
    rw [step_of_accept s p rest i _ hs (accept_complete p i hr he hcw),
      remainder_of_no_edge { p with cw := 0 } ((decodeEdge_strobe p.ew).mpr he)]
    simp only [true_and]
    split_ifs <;> rfl
  case host => exact step_of_accept s p rest i none hs (accept_host p hc i hr he hcw hh hd)

/-- Settles O13: an empty list and a silent instant offer nothing; the reset and the illegal command are the last of
their instants. -/
theorem inputsAreUsedUpAsTheModelFixes : Obligations.InputsAreUsedUpAsTheModelFixes := by
  refine ⟨fun s hs => step_idle s s (accept_nil s hs), fun s p rest hs =>
    ⟨fun hr he hcw hh => ?silent, fun hr => ⟨_, step_rst s p rest hs hr, rfl⟩, fun hc why hr he hcw hh hd => ?illegal⟩⟩
  case silent =>
    have offered : p.accept = (.idle, none) := by
      unfold Instant.accept
      rw [hr, (decodeEdge_strobe p.ew).mpr he, (decodeCompletion_strobe p.cw).mpr hcw, hh]
      rfl
    apply step_idle
    rw [accept_cons s p rest hs, offered]
    rfl
  case illegal =>
    exact ⟨_, step_illegal_host s p rest hc why hs hr ((decodeEdge_strobe p.ew).mpr he)
      ((decodeCompletion_strobe p.cw).mpr hcw) hh hd, rfl⟩

theorem decode_noEdge : decode (.e 0) = .nothing := by decide

theorem decode_noComplete : decode (.c 0) = .nothing := by decide

/-- An instant that carries one operation's word offers that operation, and nothing else. -/
theorem accept_carrying (now : Tick) (cfgOk : Bool) (w : PortWord) (i : Instr) (hw : decode w = .op i) :
    (Instant.carrying now cfgOk w).accept = (.op i, none) := by
  cases w with
  | h hc => exact accept_host (.carrying now cfgOk (.h hc)) hc i rfl decode_noEdge decode_noComplete rfl hw
  | e ew =>
    rw [accept_edge (.carrying now cfgOk (.e ew)) i rfl hw, remainder_of_no_edge _ BitVec.getLsbD_zero]
    rfl
  | c cw =>
    rw [accept_complete (.carrying now cfgOk (.c cw)) i rfl decode_noEdge hw,
      remainder_of_no_edge _ BitVec.getLsbD_zero]
    rfl

/-- A step on an instant that carries one operation's word executes that operation with the pins of the instant. -/
theorem step_carrying (s : State) (now : Tick) (cfgOk : Bool) (w : PortWord) (rest : List Instant) (i : Instr)
    (hs : s.inputs = Instant.carrying now cfgOk w :: rest) (hw : decode w = .op i) :
    step s = exec i (s.sample now cfgOk rest) := by
  rw [step_of_accept s _ rest i none hs (accept_carrying now cfgOk w i hw)]
  cases w <;> rfl

/-- A word of the opcode table that decodes to an operation is a port word that does. -/
theorem decodeTableWord_eq_some (nbits w : Nat) (i : Instr) (h : decodeTableWord nbits w = some i) :
    ∃ pw, tableWord nbits w = some pw ∧ decode pw = .op i := by
  unfold decodeTableWord at h
  split at h
  case h_1 pw word =>
    refine ⟨pw, word, ?_⟩
    cases d : decode pw with
    | op j =>
      rw [d] at h
      cases h
      rfl
    | illegal why =>
      rw [d] at h
      cases h
    | nothing =>
      rw [d] at h
      cases h
  case h_2 => cases h

/-- Settles O14: the instant that carries the word offers its operation, with the pins as they stand. -/
theorem placedTableWordRunsNext : Obligations.PlacedTableWordRunsNext := by
  intro s nbits w i h
  obtain ⟨pw, word, op⟩ := decodeTableWord_eq_some nbits w i h
  rw [State.withFetchWord, word]
  exact step_carrying (s.present pw) s.now s.cfgOk pw s.inputs i rfl op

/-- A step that executes an event's operation, followed by the steps of a run, is the event followed by the run. What is
still to be presented, `ins`, is set apart from the state `u` in which the events are executed one after another. -/
theorem run_succ_eq_execAll_cons (k : Nat) (e : Event) (es : List Event) (s u : State) (ins : List Instant)
    (first : step s = exec e.op (u.sample e.t e.cfgOk ins))
    (others : ∀ v, v.now = e.t → v.cfgOk = e.cfgOk → v.inputs = u.inputs →
      core.run k { v with inputs := ins } = execAll es v) :
    core.run (k + 1) s = execAll (e :: es) u := by
  obtain ⟨v, run⟩ := exec_defined e.op (u.sample e.t e.cfgOk u.inputs)
  have after := eq_effect_of_exec _ _ _ run
  rw [execAll_cons e es u v run, ← others v (by rw [after]; rfl) (by rw [after]; rfl) (by rw [after]; rfl)]
  exact run_succ k s _ (first.trans (exec_sample_inputs _ _ _ _ _ _ _ run))

/-- The lines of a program presented with pins that stand at `now` and `cfgOk`, before a state's own inputs. -/
theorem run_lines (now : Tick) (cfgOk : Bool) (ls : List Line) (s : State) :
    core.run ls.length { s with inputs := ls.map (lineInstant now cfgOk) ++ s.inputs } =
      execAll (ls.map (eventOf now cfgOk)) s := by
  induction ls generalizing s with
  | nil => rfl
  | cons l ls ih =>
    apply run_succ_eq_execAll_cons _ (eventOf now cfgOk l) _ _ s (ls.map (lineInstant now cfgOk) ++ s.inputs)
    · exact step_carrying _ (l.time.getD now) (l.cfgOk.getD cfgOk) (encode l.instr) _ l.instr rfl
        (decode_encode l.instr)
    · intro v _ _ hv
      rw [← hv]
      exact ih v

/-- Settles O15: induction on the lines, whose pins stand at the state's own values. -/
theorem linesExecuteInTheirOrder : Obligations.LinesExecuteInTheirOrder := fun ls s => run_lines s.now s.cfgOk ls s

/-- The event of an operation that an instant presents. -/
def Instant.event (p : Instant) (op : Instr) : Event := ⟨op, p.now, p.cfgOk⟩

/-- An instant of which nothing remains after its operation is one event. -/
theorem run_instant_last (s : State) (p : Instant) (rest : List Instant) (op : Instr) (hs : s.inputs = p :: rest)
    (hp : p.accept = (.op op, none)) : core.run 1 s = execAll [p.event op] (s.sample p.now p.cfgOk rest) := by
  apply run_succ_eq_execAll_cons 0 (p.event op) [] s (s.sample p.now p.cfgOk rest) rest
    (step_of_accept s p rest op none hs hp)
  intro v _ _ hv
  rw [← show v.inputs = rest from hv]
  rfl

/-- An instant of which `q` remains after its operation is that event, followed by what `q` presents. -/
theorem run_instant_cons (k : Nat) (s : State) (p q : Instant) (rest : List Instant) (op : Instr) (es : List Event)
    (hs : s.inputs = p :: rest) (hp : p.accept = (.op op, some q))
    (others : ∀ v : State, v.inputs = q :: rest → core.run k v = execAll es (v.sample p.now p.cfgOk rest)) :
    core.run (k + 1) s = execAll (p.event op :: es) (s.sample p.now p.cfgOk rest) := by
  apply run_succ_eq_execAll_cons k (p.event op) es s (s.sample p.now p.cfgOk rest) (q :: rest)
    (step_of_accept s p rest op (some q) hs hp)
  intro v hnow hok hins
  rw [others { v with inputs := q :: rest } rfl, ← show v.now = p.now from hnow, ← show v.cfgOk = p.cfgOk from hok,
    ← show v.inputs = rest from hins]
  rfl

/-- An EDGE leaves the rest of its instant, if a COMPLETE or a host command is presented with it. -/
theorem accept_edge_some (p : Instant) (i : Instr) (hr : p.rst = false) (he : decode (.e p.ew) = .op i)
    (more : ¬(p.cw = 0 ∧ p.hc = none)) : p.accept = (.op i, some { p with ew := 0 }) := by
  rw [accept_edge p i hr he, remainder_of_no_edge _ BitVec.getLsbD_zero, if_neg more]

/-- A COMPLETE leaves the host command that is presented with it. -/
theorem accept_complete_host (p : Instant) (hc : Word128) (i : Instr) (hr : p.rst = false)
    (he : decode (.e p.ew) = .nothing) (hcw : decode (.c p.cw) = .op i) (hh : p.hc = some hc) :
    p.accept = (.op i, some { p with cw := 0 }) := by
  rw [accept_complete p i hr he hcw, remainder_of_no_edge { p with cw := 0 } ((decodeEdge_strobe p.ew).mpr he)]
  simp [hh]

/-- A COMPLETE with no host command is the last of its instant. -/
theorem accept_complete_last (p : Instant) (i : Instr) (hr : p.rst = false) (he : decode (.e p.ew) = .nothing)
    (hcw : decode (.c p.cw) = .op i) (hh : p.hc = none) : p.accept = (.op i, none) := by
  rw [accept_complete p i hr he hcw, remainder_of_no_edge { p with cw := 0 } ((decodeEdge_strobe p.ew).mpr he)]
  simp [hh]

/-- A COMPLETE and a host command of one instant, with no EDGE. -/
theorem run_complete_host (s : State) (p : Instant) (rest : List Instant) (hc : Word128) (i : Instr)
    (hs : s.inputs = p :: rest) (hr : p.rst = false) (he : decode (.e p.ew) = .nothing)
    (hcw : decode (.c p.cw) = .op .complete) (hh : p.hc = some hc) (hd : decode (.h hc) = .op i) :
    core.run 2 s = execAll [p.event .complete, p.event i] (s.sample p.now p.cfgOk rest) :=
  run_instant_cons 1 s p _ rest .complete [p.event i] hs (accept_complete_host p hc _ hr he hcw hh) fun v hv =>
    run_instant_last v { p with cw := 0 } rest i hv (accept_host _ hc i hr he decode_noComplete hh hd)

/-- EDGE and COMPLETE touch different registers and answer nothing, so their order cannot be observed (R62). -/
theorem execAll_edge_complete_comm (s : State) (lvl : Bool) (t : Tick) (cfgOk : Bool) :
    execAll [⟨.edge lvl, t, cfgOk⟩, ⟨.complete, t, cfgOk⟩] s =
      execAll [⟨.complete, t, cfgOk⟩, ⟨.edge lvl, t, cfgOk⟩] s := by
  simp [execAll, execEvent, exec_eq_effect, effect]

/-- Settles O12: each operation of the instant leaves the others to come, with the pins of the instant. -/
theorem sameInstantOperationsRunInTheFixedOrder : Obligations.SameInstantOperationsRunInTheFixedOrder := by
  refine ⟨fun s p rest lvl hc i hs hr hd => ⟨fun he hcw hh => ?edgeCompleteHost, fun he hcw hh => ?edgeComplete,
    fun he hcw hh => ?edgeHost, fun he hcw hh => ?completeHost⟩, execAll_edge_complete_comm⟩
  case edgeCompleteHost =>
    exact run_instant_cons 2 s p _ rest _ _ hs (accept_edge_some p _ hr he (by simp [hh])) fun v hv =>
      run_complete_host v { p with ew := 0 } rest hc i hv hr decode_noEdge hcw hh hd
  case edgeComplete =>
    have presented : p.cw ≠ 0 := by
      intro absent
      rw [absent, decode_noComplete] at hcw
      exact nomatch hcw
    exact run_instant_cons 1 s p _ rest _ _ hs (accept_edge_some p _ hr he (fun h => presented h.1)) fun v hv =>
      run_instant_last v { p with ew := 0 } rest _ hv (accept_complete_last _ _ hr decode_noEdge hcw hh)
  case edgeHost =>
    exact run_instant_cons 1 s p _ rest _ _ hs (accept_edge_some p _ hr he (by simp [hh])) fun v hv =>
      run_instant_last v { p with ew := 0 } rest i hv (accept_host _ hc i hr decode_noEdge hcw hh hd)
  case completeHost => exact run_complete_host s p rest hc i hs hr he hcw hh hd

end Sys2Proof.Machine
end

section
/-! PROOFS of the family other: the frames (R59, R100, R120), who writes `playing` and `stop` (R29, R30), and what
repeats (R59). -/

namespace Sys2Proof.Machine

/-- Settles O34: the frame of the sub-blocks, and an effect that writes no input. -/
theorem subBlocksLeaveEachOtherAlone : Obligations.SubBlocksLeaveEachOtherAlone := by
  intro i s t h
  obtain ⟨pdOp, otherOp⟩ := exec_subBlock_frame i s t h
  refine ⟨pdOp, otherOp, ?_⟩
  rw [eq_effect_of_exec i s t h]
  exact ⟨rfl, rfl, rfl, rfl⟩

/-- Settles O35: each of the five has one branch, which only answers. -/
theorem readsChangeNoRegister : Obligations.ReadsChangeNoRegister := by
  intro i s t hi h
  simp only [List.mem_cons, List.not_mem_nil, or_false] at hi
  rcases hi with rfl | rfl | rfl | rfl | rfl <;>
    cases h <;>
    rfl

/-- Settles O37: START, ENQUEUE, STOP and COMPLETE by their branches; no other operation writes `playing`. -/
theorem playingIsWrittenAsRuled : Obligations.PlayingIsWrittenAsRuled := by
  intro i s t h
  rw [exec_ho i s t h]
  cases i with
  | start rate addr n => cases ok : s.cfgOk <;> simp [Handoff.begin]
  | enqueue addr n => cases stop : s.ho.stop <;> simp [stop]
  | complete => cases playing : s.ho.playing <;> cases full : s.ho.mbFull <;> simp [playing, full]
  | _ => simp

/-- Settles O38: START and STOP write `stop`, and no other operation does. -/
theorem stopIsWrittenAsRuled : Obligations.StopIsWrittenAsRuled := by
  intro i s t h
  rw [exec_ho i s t h]
  cases i with
  | start rate addr n => cases ok : s.cfgOk <;> simp [Handoff.begin]
  | enqueue addr n => cases stop : s.ho.stop <;> simp [stop]
  | complete => cases playing : s.ho.playing <;> cases full : s.ho.mbFull <;> simp [playing, full]
  | _ => simp

/-- START with the same answer, STOP and ENQUEUE, repeated, find the handoff registers as they would leave them. -/
theorem hoAfter_idempotent (ok again : Bool) (h : Handoff) (i : Instr)
    (hi : i = .stop ∨ (∃ addr n, i = .enqueue addr n) ∨ (∃ rate addr n, i = .start rate addr n) ∧ again = ok) :
    hoAfter again (hoAfter ok h i) i = hoAfter ok h i := by
  obtain rfl | ⟨addr, n, rfl⟩ | ⟨⟨rate, addr, n, rfl⟩, rfl⟩ := hi
  · rfl
  · cases stop : h.stop <;> simp [stop, Handoff.install]
  · cases again <;> rfl

/-- Settles O36: the second START, STOP, ENQUEUE or EDGE finds the registers as it would leave them, the second SWAP
restores the bit, and the second POLL finds `count = 0`. -/
theorem repeatedOperationsAreIdempotent : Obligations.RepeatedOperationsAreIdempotent := by
  rintro i s t u e first rfl again
  have pd₁ : t.pd = _ := exec_pd _ s t first
  have pd₂ : u.pd = pdAfter t.params e.t t.pd e.op := exec_pd _ _ u again
  have ho₁ : t.ho = _ := exec_ho _ s t first
  have ho₂ : u.ho = hoAfter e.cfgOk t.ho e.op := exec_ho _ _ u again
  rw [ho₁] at ho₂ ⊢
  refine ⟨fun rate addr n hi ok => ?start, fun hi => ?stop, fun addr n hi => ?enqueue, fun lvl hi => ?edge,
    fun hi => ?swap, fun hi digit => ?poll⟩
  case start => exact ho₂.trans (hoAfter_idempotent _ _ _ _ (.inr (.inr ⟨⟨_, _, _, hi⟩, ok⟩)))
  case stop => exact ho₂.trans (hoAfter_idempotent _ _ _ _ (.inl hi))
  case enqueue => exact ho₂.trans (hoAfter_idempotent _ _ _ _ (.inr (.inl ⟨_, _, hi⟩)))
  case edge =>
    have level : t.pd.lastLevel = lvl := by rw [pd₁, hi, pdAfter, edgeUpdate_lastLevel]
    rw [pd₂, hi, pdAfter, ← level, edgeUpdate_same]
  case swap =>
    rw [ho₂, hi]
    simp [Handoff.swapRoles]
  case poll =>
    have cleared : t.pd.count = 0 := by
      obtain ⟨lvl, edge, -⟩ | ⟨-, count, -⟩ := exec_count_cases _ s t first digit
      · exact nomatch edge.symm.trans hi
      · exact count
    have noDigit : digitDone t.params e.t t.pd = false := by simp [digitDone, cleared]
    rw [execEvent_eq, hi, exec_poll_none _ noDigit] at again
    cases again
    exact ⟨rfl, rfl⟩

end Sys2Proof.Machine
end

section
/-! PROOFS of the family other: noninterference of the two sub-blocks (R100, R120) and of registers that mean nothing
(R22, R24, R25, R27, R32, R33). -/

namespace Sys2Proof.Machine

/-- A relation that an event of the kind `own` keeps between two runs that both accept it, and any other event between
a run that accepts it and one that does not, holds between a run and that of its `own` events. -/
theorem execAll_filter (own : Event → Bool) (R : State → State → Prop)
    (both : ∀ e s u t v, own e = true → R s u → execEvent e s = .next t → execEvent e u = .next v → R t v)
    (alone : ∀ e s u t, own e = false → R s u → execEvent e s = .next t → R t u) (es : List Event) (s u : State)
    (hR : R s u) : ∃ t v, execAll es s = .next t ∧ execAll (es.filter own) u = .next v ∧ R t v := by
  induction es generalizing s u with
  | nil => exact ⟨s, u, rfl, rfl, hR⟩
  | cons e es ih =>
    obtain ⟨s', hs⟩ := exec_defined e.op (s.sample e.t e.cfgOk s.inputs)
    rw [execAll_cons e es s s' hs]
    cases he : own e with
    | true =>
      obtain ⟨u', hu⟩ := exec_defined e.op (u.sample e.t e.cfgOk u.inputs)
      rw [List.filter_cons_of_pos he, execAll_cons e _ u u' hu]
      exact ih s' u' (both e s u s' u' he hR hs hu)
    | false =>
      rw [List.filter_cons_of_neg (by simp [he])]
      exact ih s' u (alone e s u s' he hR hs)

/-- Settles O41: PulseState and the parameters agree along the run and the run of its PD operations, the handoff
registers and port O along the run and the run of its others. -/
theorem interleavedSubBlocksDoNotInterfere : Obligations.InterleavedSubBlocksDoNotInterfere := by
  intro es s
  have pdRuns := execAll_filter (fun e => isPdOp e.op) (fun a b => a.pd = b.pd ∧ a.params = b.params)
    ?pdBoth ?pdAlone es s s ⟨rfl, rfl⟩
  have hoRuns := execAll_filter (fun e => !isPdOp e.op) (fun a b => a.ho = b.ho ∧ a.portO = b.portO)
    ?hoBoth ?hoAlone es s s ⟨rfl, rfl⟩
  · obtain ⟨t, u, run, pdRun, pd, -⟩ := pdRuns
    obtain ⟨t', v, run', hoRun, ho, portO⟩ := hoRuns
    cases run.symm.trans run'
    exact ⟨t, u, v, run, pdRun, hoRun, pd, ho, portO⟩
  case pdBoth =>
    rintro e a b a' b' - ⟨pd, params⟩ ha hb
    rw [eq_effect_of_exec _ _ _ ha, eq_effect_of_exec _ _ _ hb]
    simp [effect, pd, params]
  case pdAlone =>
    rintro e a b a' he ⟨pd, params⟩ ha
    obtain ⟨-, other, params', -⟩ := subBlocksLeaveEachOtherAlone _ _ _ ha
    exact ⟨(other he).trans pd, params'.trans params⟩
  case hoBoth =>
    rintro e a b a' b' - ⟨ho, portO⟩ ha hb
    rw [eq_effect_of_exec _ _ _ ha, eq_effect_of_exec _ _ _ hb]
    simp [effect, ho, portO]
  case hoAlone =>
    rintro e a b a' he ⟨ho, portO⟩ ha
    obtain ⟨ho', portO'⟩ := (subBlocksLeaveEachOtherAlone _ _ _ ha).1 (by simpa using he)
    exact ⟨ho'.trans ho, portO'.trans portO⟩

/-- Settles O42: of the operations that touch PulseState, a fall overwrites `fall_ts` and a repeated high level does not
read it; a pulse overwrites `last_pulse_ts`, and a POLL with `count = 0` does not read it. -/
theorem staleTimeStampsAreNotRead : Obligations.StaleTimeStampsAreNotRead := by
  refine ⟨fun i s t t' x high hi h h' => ?fallTs, fun i s t t' x empty hi h h' => ?lastPulseTs⟩
  case fallTs =>
    cases i with
    | pdread => exact absurd rfl hi
    | poll =>
      cases digit : digitDone s.params s.now s.pd with
      | true =>
        cases (exec_poll_digit s digit).symm.trans h
        cases (exec_poll_digit { s with pd := { s.pd with fallTs := x } } digit).symm.trans h'
        exact ⟨rfl, .inl high⟩
      | false =>
        cases (exec_poll_none s digit).symm.trans h
        cases (exec_poll_none { s with pd := { s.pd with fallTs := x } } digit).symm.trans h'
        exact ⟨rfl, .inl high⟩
    | edge lvl =>
      rw [eq_effect_of_exec _ _ t' h', eq_effect_of_exec _ s t h]
      simp only [effect, pdAfter, edgeUpdate, high]
      cases lvl with
      | false => exact ⟨rfl, .inr rfl⟩
      | true => exact ⟨rfl, .inl rfl⟩
    | _ =>
      rw [eq_effect_of_exec _ _ t' h', eq_effect_of_exec _ s t h]
      exact ⟨rfl, .inl high⟩
  case lastPulseTs =>
    rw [eq_effect_of_exec i _ t' h', eq_effect_of_exec i s t h]
    cases i with
    | pdread => exact absurd rfl hi
    | poll => simp [effect, digitDone, empty]
    | edge lvl =>
      simp only [effect, pdAfter, edgeUpdate]
      split_ifs with fall rise window
      · exact ⟨rfl, .inl empty⟩
      · exact ⟨rfl, .inr rfl⟩
      · exact ⟨rfl, .inl empty⟩
      · exact ⟨rfl, .inl empty⟩
    | _ => exact ⟨rfl, .inl empty⟩

/-- Settles O43: of the operations that touch the handoff registers, START and COMPLETE leave an empty mailbox empty and
ENQUEUE overwrites it; the shadow and `fill_sel` decide no branch of any operation. -/
theorem staleHandoffRegistersAreNotRead : Obligations.StaleHandoffRegistersAreNotRead := by
  refine ⟨fun i s t t' a n empty hi h h' => ?mailbox, fun i s t t' a n hi h h' => ?shadow,
    fun i s t t' b hswap hread h h' => ?fillSel⟩
  all_goals rw [eq_effect_of_exec i _ t' h', eq_effect_of_exec i s t h]
  case mailbox =>
    cases i with
    | pbread => exact absurd rfl hi
    | enqueue addr m =>
      simp only [effect, hoAfter, answers]
      split_ifs
      · exact ⟨rfl, .inl empty⟩
      · exact ⟨rfl, .inr ⟨rfl, rfl⟩⟩
    | start _ _ _ =>
      simp only [effect, hoAfter, answers, emitted]
      split_ifs
      · exact ⟨rfl, .inl rfl⟩
      · exact ⟨rfl, .inl empty⟩
    | complete =>
      simp only [effect, hoAfter, answers, emitted, empty, Bool.false_eq_true, if_false]
      split_ifs <;> exact ⟨rfl, .inl rfl⟩
    | _ => exact ⟨rfl, .inl empty⟩
  case shadow =>
    cases i with
    | pbcur => exact absurd rfl hi
    | start _ _ _ | enqueue _ _ | complete =>
      simp only [effect, hoAfter, answers, emitted]
      split_ifs <;> rfl
    | _ => rfl
  case fillSel =>
    cases i with
    | pbread => exact absurd rfl hread
    | swap => exact absurd rfl hswap
    | start _ _ _ | enqueue _ _ | complete =>
      simp only [effect, hoAfter, answers, emitted]
      split_ifs <;> exact ⟨rfl, rfl⟩
    | _ => exact ⟨rfl, rfl⟩

end Sys2Proof.Machine
end

section
/-! PROOFS of the family other: sequences of level notifications (R101, R105, R107, R110) and the digit they make
(R108). -/

namespace Sys2Proof.Machine

/-- PulseState after a sequence of notifications `(lvl, t)`. -/
def afterEdges (p : Params) (es : List (Bool × Tick)) (pd : PulseState) : PulseState :=
  es.foldl (fun pd e => edgeUpdate p e.2 e.1 pd) pd

/-- A run of EDGEs writes PulseState, and of the rest only the sampled time. -/
theorem execAll_edges (es : List (Bool × Tick)) (s : State) :
    ∃ now, execAll (es.map fun e => ⟨.edge e.1, e.2, s.cfgOk⟩) s =
      .next { s with pd := afterEdges s.params es s.pd, now := now } := by
  induction es generalizing s with
  | nil => exact ⟨s.now, rfl⟩
  | cons e es ih =>
    obtain ⟨now, run⟩ := ih { s with pd := edgeUpdate s.params e.2 e.1 s.pd, now := e.2 }
    exact ⟨now, run⟩

/-- The durations in the window among the low periods of a sequence of notifications (R104, R107). -/
def validLows (p : Params) (level : Bool) (fall : Tick) (es : List (Bool × Tick)) : List Tick :=
  (lowDurations level fall es).filter (inWindow p)

/-- A sequence of notifications adds to `count` the low periods whose duration lies in the window, saturating at 255,
and with none of them leaves `last_pulse_ts`. -/
theorem afterEdges_count (p : Params) (es : List (Bool × Tick)) (pd : PulseState) :
    (afterEdges p es pd).count.toNat =
        min (pd.count.toNat + (validLows p pd.lastLevel pd.fallTs es).length) 255 ∧
      (validLows p pd.lastLevel pd.fallTs es = [] → (afterEdges p es pd).lastPulseTs = pd.lastPulseTs) := by
  induction es generalizing pd with
  | nil =>
    have := pd.count.isLt
    refine ⟨?_, fun _ => rfl⟩
    simp only [afterEdges, List.foldl_nil, validLows, lowDurations, List.filter_nil, List.length_nil]
    omega
  | cons e es ih =>
    obtain ⟨lvl, t⟩ := e
    have next := ih (edgeUpdate p t lvl pd)
    rw [show afterEdges p es (edgeUpdate p t lvl pd) = afterEdges p ((lvl, t) :: es) pd from rfl] at next
    obtain ⟨level, rfl, upd⟩ | ⟨level, rfl, window, upd⟩ | ⟨level, rfl, window, upd⟩ | ⟨rfl, upd⟩ :=
      edgeUpdate_cases p t lvl pd
    all_goals rw [upd] at next
    · rw [level]
      exact next
    · have pulse : validLows p false pd.fallTs ((true, t) :: es) = (t - pd.fallTs) :: validLows p true pd.fallTs es :=
        List.filter_cons_of_pos window
      obtain ⟨count, -⟩ := next
      simp only [PulseState.observe_count, PulseState.recordPulse_count, satInc_toNat, PulseState.observe_lastLevel,
        PulseState.observe_fallTs, PulseState.recordPulse_fallTs] at count
      rw [level, pulse, count, List.length_cons]
      exact ⟨by omega, nofun⟩
    · have noise : validLows p false pd.fallTs ((true, t) :: es) = validLows p true pd.fallTs es :=
        List.filter_cons_of_neg (Bool.not_eq_true _ ▸ window)
      rw [level, noise]
      exact next
    · have skipped : validLows p pd.lastLevel pd.fallTs ((pd.lastLevel, t) :: es) =
          validLows p pd.lastLevel pd.fallTs es := by cases pd.lastLevel <;> rfl
      rw [skipped]
      exact next

/-- Settles O45: a run of EDGEs is `afterEdges`, whose count is that of the low periods in the window. -/
theorem countIsTheNumberOfValidLowPeriods : Obligations.CountIsTheNumberOfValidLowPeriods := by
  intro es s durs valid
  have window : valid = validLows s.params s.pd.lastLevel s.pd.fallTs es := by
    apply List.filter_congr
    intro d _
    exact Bool.eq_iff_iff.mpr (decide_eq_true_iff.trans (inWindow_iff s.params d).symm)
  obtain ⟨now, run⟩ := execAll_edges es s
  obtain ⟨count, stamp⟩ := afterEdges_count s.params es s.pd
  rw [window]
  exact ⟨_, run, count, stamp, rfl, rfl, rfl⟩

/-- The notifications of low pulses, each from its fall to its rise (R83). -/
def pulseEdges (ps : List (Tick × Tick)) : List (Bool × Tick) := ps.flatMap fun p => [(false, p.1), (true, p.2)]

/-- The lines of pulses present their notifications. -/
theorem events_pulses (now : Tick) (cfgOk : Bool) (ps : List (Tick × Tick)) :
    (ps.flatMap fun p => (PseudoOp.pulse p.1 p.2).expand).map (eventOf now cfgOk) =
      (pulseEdges ps).map fun e => ⟨.edge e.1, e.2, cfgOk⟩ := by
  rw [pulseEdges, List.map_flatMap, List.map_flatMap]
  rfl

/-- One pulse in the window, from a high line. -/
theorem edgeUpdate_fall_rise (p : Params) (a b : Tick) (pd : PulseState) (high : pd.lastLevel = true)
    (window : inWindow p (elapsed b a) = true) :
    edgeUpdate p b true (edgeUpdate p a false pd) = ⟨true, a, satInc pd.count, b⟩ := by
  rw [edgeUpdate_fall p a pd high, edgeUpdate_pulse p b ((pd.recordFall a).observe false) rfl window]
  rfl

/-- Pulses in the window, from a high line, leave it high and are each counted up to 255 (R105). -/
theorem afterEdges_pulses (p : Params) (ps : List (Tick × Tick)) (pd : PulseState) (high : pd.lastLevel = true)
    (window : ∀ q ∈ ps, inWindow p (elapsed q.2 q.1) = true) :
    (afterEdges p (pulseEdges ps) pd).lastLevel = true ∧
      (afterEdges p (pulseEdges ps) pd).count.toNat = min (pd.count.toNat + ps.length) 255 := by
  induction ps generalizing pd with
  | nil =>
    have := pd.count.isLt
    exact ⟨high, by simp only [afterEdges, pulseEdges, List.flatMap_nil, List.foldl_nil, List.length_nil]; omega⟩
  | cons q ps ih =>
    obtain ⟨level, count⟩ := ih ⟨true, q.1, satInc pd.count, q.2⟩ rfl fun r hr => window r (List.mem_cons_of_mem q hr)
    rw [← edgeUpdate_fall_rise p q.1 q.2 pd high (window q List.mem_cons_self)] at level count
    refine ⟨level, count.trans ?_⟩
    rw [edgeUpdate_fall_rise p q.1 q.2 pd high (window q List.mem_cons_self), satInc_toNat, List.length_cons]
    omega

/-- The last of several pulses in the window is counted and stamps `last_pulse_ts`. -/
theorem afterEdges_last_pulse (p : Params) (ps : List (Tick × Tick)) (last : Tick × Tick) (pd : PulseState)
    (high : pd.lastLevel = true) (window : ∀ q ∈ ps ++ [last], inWindow p (elapsed q.2 q.1) = true) :
    afterEdges p (pulseEdges (ps ++ [last])) pd =
      ⟨true, last.1, satInc (afterEdges p (pulseEdges ps) pd).count, last.2⟩ := by
  obtain ⟨level, -⟩ := afterEdges_pulses p ps pd high fun q hq => window q (List.mem_append_left _ hq)
  rw [← edgeUpdate_fall_rise p last.1 last.2 _ level (window last (by simp))]
  simp [afterEdges, pulseEdges]

/-- The line `DIGIT?` presents a POLL at its time (R83). -/
theorem run_digit (s : State) (t : Tick) :
    core.run 1 (s.loadLines (PseudoOp.digit t).expand) = exec .poll (s.sample t s.cfgOk s.inputs) := by
  obtain ⟨u, run⟩ := exec_defined .poll (s.sample t s.cfgOk s.inputs)
  rw [show 1 = (PseudoOp.digit t).expand.length from rfl, linesExecuteInTheirOrder]
  exact (execAll_cons ⟨.poll, t, s.cfgOk⟩ [] s u run).trans run.symm

/-- Settles O46: the pulses leave `count = N` and the last rise in `last_pulse_ts`; the first POLL after the pause
finds the digit and clears it, and the next finds none. -/
theorem pulsesThenPauseGiveOneDigit : Obligations.PulsesThenPauseGiveOneDigit := by
  intro ps last s tm later empty high short valid pause
  have window : ∀ q ∈ ps ++ [last], inWindow s.params (elapsed q.2 q.1) = true := fun q hq =>
    (inWindow_iff _ _).mpr (valid q hq)
  obtain ⟨now, pulses⟩ := execAll_edges (pulseEdges (ps ++ [last])) s
  rw [← events_pulses s.now, ← linesExecuteInTheirOrder,
    afterEdges_last_pulse s.params ps last s.pd high window] at pulses
  have lines : 2 * (ps.length + 1) = ((ps ++ [last]).flatMap fun p => (PseudoOp.pulse p.1 p.2).expand).length := by
    simp only [List.length_flatMap, PseudoOp.expand, List.length_cons, List.length_nil, List.map_const',
      List.sum_replicate, List.length_append, smul_eq_mul]
    omega
  rw [← lines] at pulses
  generalize counted : satInc (afterEdges s.params (pulseEdges ps) s.pd).count = c at pulses
  have count : c.toNat = ps.length + 1 := by
    have before := (afterEdges_pulses s.params ps s.pd high fun q hq => window q (List.mem_append_left _ hq)).2
    rw [← counted, satInc_toNat, before, empty]
    simp only [BitVec.ofNat_eq_ofNat, BitVec.toNat_ofNat]
    omega
  have digit : digitDone s.params tm ⟨true, last.1, c, last.2⟩ = true := by
    rw [digitDone_iff_toNat]
    exact ⟨by rw [count]; exact Nat.succ_ne_zero _, BitVec.lt_def.mp pause⟩
  refine ⟨_, _, _, pulses, count, rfl, rfl, rfl, rfl, rfl, rfl, rfl,
    (run_digit _ tm).trans (exec_poll_digit _ digit), ?_, rfl,
    (run_digit _ later).trans (exec_poll_none _ (by simp [digitDone])), rfl⟩
  rw [← count, ← zext32_eq]
  rfl

end Sys2Proof.Machine
end

section
/-! PROOFS of the family other: delivery and resumption of playback (R129, R133) and the lending rule (R53, R194). -/

namespace Sys2Proof.Machine

/-- COMPLETE, STOP and START are the only operations that write `playing` or `stop` or emit a command. -/
theorem exec_keeps_engine (i : Instr) (s t : State) (h : exec i s = .next t) (hcomplete : i ≠ .complete)
    (hstop : i ≠ .stop) (hstart : ∀ rate addr n, i ≠ .start rate addr n) :
    t.ho.playing = s.ho.playing ∧ t.ho.stop = s.ho.stop ∧ t.portO = s.portO := by
  cases i with
  | complete => exact absurd rfl hcomplete
  | stop => exact absurd rfl hstop
  | start rate addr n => exact absurd rfl (hstart rate addr n)
  | enqueue addr n =>
    cases stop : s.ho.stop with
    | true =>
      cases (exec_enqueue_stopped s addr n stop).symm.trans h
      exact ⟨rfl, stop, rfl⟩
    | false =>
      cases (exec_enqueue_ok s addr n stop).symm.trans h
      exact ⟨rfl, stop, rfl⟩
  | _ =>
    obtain ⟨⟨f, ho⟩, portO⟩ := exec_handoff_frame _ s t h nofun nofun nofun nofun
    rw [ho]
    exact ⟨rfl, rfl, portO⟩

/-- Operations without COMPLETE, STOP and START leave the engine as it is and emit nothing. -/
theorem execAll_keeps_engine (es : List Event) (s : State)
    (others : ∀ e ∈ es, e.op ≠ .complete ∧ e.op ≠ .stop ∧ ∀ r a m, e.op ≠ .start r a m) :
    ∃ t, execAll es s = .next t ∧ t.ho.playing = s.ho.playing ∧ t.ho.stop = s.ho.stop ∧ t.portO = s.portO := by
  refine execAll_keeps (fun t => t.ho.playing = s.ho.playing ∧ t.ho.stop = s.ho.stop ∧ t.portO = s.portO) es s ?_
    ⟨rfl, rfl, rfl⟩
  rintro e he a b run ⟨playing, stop, portO⟩
  obtain ⟨hcomplete, hstop, hstart⟩ := others e he
  obtain ⟨playing', stop', portO'⟩ := exec_keeps_engine _ _ b run hcomplete hstop hstart
  exact ⟨playing'.trans playing, stop'.trans stop, portO'.trans portO⟩

/-- Operations without COMPLETE, STOP, START and ENQUEUE write no handoff register but `fill_sel` and emit nothing. -/
theorem execAll_handoff_frame (es : List Event) (s : State)
    (others : ∀ e ∈ es, e.op ≠ .complete ∧ e.op ≠ .stop ∧ ∀ r a m, e.op ≠ .start r a m)
    (noEnqueue : ∀ e ∈ es, ∀ a m, e.op ≠ .enqueue a m) :
    ∃ t, execAll es s = .next t ∧ (∃ f, t.ho = { s.ho with fillSel := f }) ∧ t.portO = s.portO := by
  refine execAll_keeps (fun t => (∃ f, t.ho = { s.ho with fillSel := f }) ∧ t.portO = s.portO) es s ?_
    ⟨⟨s.ho.fillSel, rfl⟩, rfl⟩
  rintro e he a b run ⟨⟨f, ho⟩, portO⟩
  obtain ⟨hcomplete, hstop, hstart⟩ := others e he
  obtain ⟨⟨g, ho'⟩, portO'⟩ := exec_handoff_frame _ _ b run hstop hcomplete hstart (noEnqueue e he)
  exact ⟨⟨g, ho'.trans (congrArg (fun h : Handoff => { h with fillSel := g }) ho)⟩, portO'.trans portO⟩

theorem execEvent_enqueue (e : Event) (s : State) (addr : Addr) (n : SampleCount) (he : e.op = .enqueue addr n)
    (stop : s.ho.stop = false) :
    ∃ t, execEvent e s = .next t ∧ t.ho = s.ho.install addr n ∧ t.portO = s.portO := by
  rw [execEvent_eq, he]
  exact ⟨_, exec_enqueue_ok _ addr n stop, rfl, rfl⟩

theorem execEvent_retarget (e : Event) (s : State) (he : e.op = .complete) (playing : s.ho.playing = true)
    (full : s.ho.mbFull = true) :
    ∃ t, execEvent e s = .next t ∧ t.ho = s.ho.clearMailbox.setShadow s.ho.mbAddr s.ho.mbCount ∧
      t.portO = s.portO ++ [.retarget s.ho.mbAddr s.ho.mbCount] := by
  rw [execEvent_eq, he]
  exact ⟨_, exec_complete_retarget _ playing full, rfl, rfl⟩

theorem execEvent_drain (e : Event) (s : State) (he : e.op = .complete) (playing : s.ho.playing = true)
    (empty : s.ho.mbFull = false) :
    ∃ t, execEvent e s = .next t ∧ t.ho = s.ho.clearMailbox.setPlaying false ∧ t.portO = s.portO ++ [.abort] := by
  rw [execEvent_eq, he]
  exact ⟨_, exec_complete_drain _ playing empty, rfl, rfl⟩

/-- Settles O48: the engine still plays when the ENQUEUE comes, its pair stays in the mailbox until the COMPLETE, and
the COMPLETE after that finds the mailbox empty. -/
theorem onlyTheLastEnqueueIsDelivered : Obligations.OnlyTheLastEnqueueIsDelivered := by
  intro before after last c d addr n s playing stop hlast hc hd others noEnqueue
  obtain ⟨t₁, run₁, playing₁, stop₁, portO₁⟩ :=
    execAll_keeps_engine before s fun e he => others e (List.mem_append_left _ he)
  obtain ⟨t₂, run₂, ho₂, portO₂⟩ := execEvent_enqueue last t₁ addr n hlast (stop₁.trans stop)
  obtain ⟨t₃, run₃, ⟨f, ho₃⟩, portO₃⟩ := execAll_handoff_frame after t₂
    (fun e he => others e (List.mem_append_right _ he)) noEnqueue
  rw [ho₂] at ho₃
  have playing₃ : t₃.ho.playing = true := by
    rw [ho₃]
    exact playing₁.trans playing
  obtain ⟨t₄, run₄, ho₄, portO₄⟩ := execEvent_retarget c t₃ hc playing₃ (by rw [ho₃]; rfl)
  rw [ho₃] at ho₄ portO₄
  have playing₄ : t₄.ho.playing = true := by
    rw [ho₄]
    exact playing₁.trans playing
  have empty₄ : t₄.ho.mbFull = false := by rw [ho₄]; rfl
  obtain ⟨u, run₅, ho₅, portO₅⟩ := execEvent_drain d t₄ hd playing₄ empty₄
  refine ⟨t₄, u, ?_, by rw [portO₄, portO₃, portO₂, portO₁]; rfl, playing₄, empty₄, by rw [ho₄]; rfl, by rw [ho₄]; rfl,
    run₅, portO₅, by rw [ho₅]; rfl⟩
  rw [List.append_assoc, List.append_assoc, execAll_append before _ s t₁ run₁, List.singleton_append,
    execAll_cons last _ t₁ t₂ run₂, execAll_append after _ t₂ t₃ run₃, execAll_cons c [] t₃ t₄ run₄, execAll_nil]

/-- An Idle engine is not asked to retarget (R125). -/
theorem retarget_not_mem_emitted (h : Handoff) (i : Instr) (idle : h.playing = false) (a : Addr) (n : SampleCount) :
    OutCmd.retarget a n ∉ emitted h i := by
  cases i with
  | complete => simp [idle]
  | _ => simp

/-- The engine is Idle, and since port O held `out` it has been asked for no retarget. -/
def IdleSince (out : List OutCmd) (s : State) : Prop :=
  s.ho.playing = false ∧ ∃ cs, s.portO = out ++ cs ∧ ∀ a n, OutCmd.retarget a n ∉ cs

/-- An event that is no successful START leaves an Idle engine Idle and asks for no retarget (R133). -/
theorem execEvent_keeps_idleSince (out : List OutCmd) (e : Event) (s t : State) (run : execEvent e s = .next t)
    (noStart : ∀ rate addr n, e.op = .start rate addr n → e.cfgOk = false) (since : IdleSince out s) :
    IdleSince out t := by
  obtain ⟨idle, cs, portO, noRetarget⟩ := since
  refine ⟨?idle, cs ++ emitted s.ho e.op, ?portO, fun a n mem => ?noRetarget⟩
  case idle =>
    rw [← Bool.not_eq_true, playingIsWrittenAsRuled _ _ t run]
    rintro (⟨ok, rate, addr, n, start⟩ | ⟨playing, -⟩)
    · exact nomatch (noStart rate addr n start).symm.trans ok
    · exact nomatch idle.symm.trans playing
  case portO =>
    rw [← List.append_assoc, ← portO]
    exact exec_portO e.op (s.sample e.t e.cfgOk s.inputs) t run
  case noRetarget =>
    exact (List.mem_append.mp mem).elim (noRetarget a n) (retarget_not_mem_emitted s.ho e.op idle a n)

/-- Settles O50: only a START that succeeds makes an Idle engine play, and an Idle engine neither is asked to retarget
nor is ready. -/
theorem onlyStartResumesPlayback : Obligations.OnlyStartResumesPlayback := by
  intro es s idle noStart
  obtain ⟨t, run, idle', cs, portO, noRetarget⟩ := execAll_keeps (IdleSince s.portO) es s
    (fun e he a b run => execEvent_keeps_idleSince s.portO e a b run (noStart e he)) ⟨idle, [], by simp⟩
  exact ⟨t, cs, run, idle', portO, noRetarget, by simp [Handoff.ready, idle']⟩

/-- Settles O51: what is lent depends on the shadow while Playing and on a mailbox that is full and not stopped, which
COMPLETE, STOP, ENQUEUE and START write as their branches say. -/
theorem lendingFollowsTheOperations : Obligations.LendingFollowsTheOperations := by
  intro i s t b h
  rw [exec_ho i s t h]
  refine ⟨?complete, ?stop, ?enqueue, ?start, ?other⟩
  case complete =>
    rintro rfl
    cases playing : s.ho.playing <;> cases full : s.ho.mbFull <;> simp [Handoff.lends, playing, full]
  case stop =>
    rintro rfl
    simp [Handoff.lends]
  case enqueue =>
    rintro addr n rfl stop
    simp [Handoff.lends, stop]
  case start =>
    rintro rate addr n rfl ok
    simp [Handoff.lends, ok, Handoff.begin]
  case other =>
    rintro ⟨hcomplete, hstop, henqueue, hstart⟩
    cases i with
    | complete => exact absurd rfl hcomplete
    | stop => exact absurd rfl hstop
    | enqueue addr n => simp [henqueue addr n rfl]
    | start rate addr n => simp [hstart rate addr n rfl]
    | _ => rfl

/-- A byte of a region that lies in a Chunk is a byte of the Chunk (R51, R52). -/
theorem inChunk_of_inRegion (p : Params) (k : Bool) (addr : Addr) (n : SampleCount) (b : Nat)
    (inside : regionInChunk p k addr n = true) (hb : inRegion addr n b = true) : inChunk p k b = true := by
  simp only [regionInChunk, inRegion, inChunk, Bool.and_eq_true, decide_eq_true_eq] at inside hb ⊢
  omega

/-- No byte is in both Chunks (R6). -/
theorem not_inChunk_both (p : Params) (k : Bool) (b : Nat) (hp : p.wf = true) (hb : inChunk p k b = true) :
    inChunk p (!k) b = false := by
  have disjoint : p.chunksDisjoint = true := (Bool.and_eq_true_iff.mp hp).2
  simp only [Params.chunksDisjoint, Bool.or_eq_true, decide_eq_true_eq] at disjoint
  cases k <;>
    simp [inChunk, chunkBase] at hb ⊢ <;>
    omega

/-- Settles O52: the SWAP empties nothing and fills nothing, so what is lent while `ready` is the shadow, in the Chunk
that was the fill-side one; a START and the COMPLETE after an ENQUEUE put into the shadow a region in the fill-side
Chunk. -/
theorem swapDisciplineFreesTheFillChunk : Obligations.SwapDisciplineFreesTheFillChunk := by
  intro s hp
  refine ⟨fun rate addr n ok duty => ?start, fun duty shadow =>
    ⟨_, exec_swap s, fun b hb => ?freed, fun addr n duty' => ?taken⟩⟩
  case start =>
    simp only [hostDuty, Bool.and_eq_true] at duty
    exact ⟨_, exec_start_ok s rate addr n ok, rfl, duty.2⟩
  case freed =>
    obtain ⟨playing, stop, empty⟩ := (ready_iff s.ho).mp duty
    have other : inChunk s.params s.ho.fillSel b = false := by
      simpa using not_inChunk_both s.params (!s.ho.fillSel) b hp hb
    have notCurrent : inRegion s.ho.curAddr s.ho.curCount b = false := by
      rw [← Bool.not_eq_true]
      intro current
      rw [inChunk_of_inRegion _ _ _ _ b shadow current] at other
      exact nomatch other
    simp [Handoff.lends, empty, notCurrent]
  case taken =>
    obtain ⟨playing, stop, empty⟩ := (ready_iff s.ho).mp duty
    simp only [hostDuty, Bool.and_eq_true] at duty'
    refine ⟨_, _, exec_enqueue_ok _ addr n stop, exec_complete_retarget _ playing rfl, ?_, duty'.2⟩
    exact (ready_iff _).mpr ⟨playing, stop, rfl⟩

end Sys2Proof.Machine
end
